-- ==== Sys2Proof/Word.lean ====
section
/-! DEFINITION. Word.lean: the widths the spec gives its values (00_scope R11, 10_state R20, 30_encoding R71 and R75). -/

namespace Sys2Proof

/-- A ROM sample or a duty value, 8 bits unsigned (R24, R51). -/
abbrev Byte := BitVec 8

/-- The stimulus word `SW[19:0] = {rst, h_we, h_addr[1:0], h_wdata[15:0]}` (R71). -/
abbrev StimulusWord := BitVec 20

/-- The control word `CW[4:0] = {run, fnz, pwrap, cexp, iend}` (R75). -/
abbrev ControlWord := BitVec 5

/-- A frequency in UQ8.8: the integer is hertz times 256 (R21, R84). -/
abbrev Frequency := BitVec 16

/-- A raw converter sample, 0..1023 (R74). -/
abbrev Sample := BitVec 10

/-- The table index register's width, 9 bits (R23). -/
abbrev TableIndex := BitVec 9

/-- Read-only memory contents: the listed (address, byte) pairs; what an unlisted address reads as
is `Rom.defaultByte` (R52, log 9). -/
abbrev Memory := List Host.Cell

end Sys2Proof
end

