-- ==== Sys2Proof/Config.lean ====
section
/-! DEFINITION. Config.lean: what is fixed when the hardware is built (00_scope R7 to R10, 10_state R38), and the free values. -/

namespace Sys2Proof

/-- The wrap policy `WRAP_MODE` (R9): `dead` is the reference behaviour (R149), `cont` the alternative (R150). -/
inductive WrapMode where
  | dead
  | cont
deriving DecidableEq, Repr

/-- The parameters the spec leaves to the model's user (R8, R9; 92_eei_decisions, "Open parameters, collected"). -/
structure Config where
  /-- `F_CLK`, the clock rate in hertz (R8). -/
  fClk : Nat
  /-- `PRESCALE`, the timer prescaler (R8). -/
  prescale : Nat
  /-- `PW`, the width of `PERIOD` and `CNT` (R9). -/
  pw : Nat
  /-- `WRAP_MODE` (R9). -/
  wrapMode : WrapMode
  /-- `DUTY_SCALE` (R9): `true` is the "divisor" variant. -/
  dutyScale : Bool
  /-- `SINE_ROM` (R9, R52), as the entries that differ from `DEFAULT_SINE_ROM` (log 9). -/
  sineRom : Memory
deriving DecidableEq, Repr

namespace Config

/-- The reference configuration of R8 with the defaults of R9. -/
def reference : Config where
  fClk := 16000000
  prescale := 256
  pw := 8
  wrapMode := .dead
  dutyScale := false
  sineRom := []

/-- `PMAX = 2^PW - 1` (R10). -/
def pmax (c : Config) : Nat := 2 ^ c.pw - 1

/-- The number of bits of `PSC`: `ceil(log2(PRESCALE))`, 0 bits if `PRESCALE = 1` (R20). -/
def pscWidth (c : Config) : Nat := if c.prescale ≤ 1 then 0 else Nat.log2 (c.prescale - 1) + 1

/-- FREE VALUE (log 2): the word the HOST presents where State lists none; the HOST chooses
"the stimulus word of every cycle without constraint" (R15). No body can be seen by a proof. -/
opaque hostWord : Nat → StimulusWord

/-- FREE VALUE (log 4): what `PSC` holds after a `PSCINC` whose sum does not fit the register,
which only a state before the first reset allows (R93: "no rule relies on what happens there"). -/
opaque freePsc : Nat → Nat

end Config

end Sys2Proof
end

