-- ==== Sys2Proof/Machine/Rom.lean ====
section
/-! DEFINITION. Machine/Rom.lean: the sine ROM (20_memory R50 to R52): its default contents, its canonical form,
reading it, and building it from a table. The machine only reads it. -/

namespace Sys2Proof.Rom

/-- `DEFAULT_SINE_ROM`, rows r = 0 .. 3 of the listing (R52). -/
def defaultQuarter0 : List Nat :=
  [128, 131, 134, 137, 140, 144, 147, 150, 153, 156, 159, 162, 165, 168, 171, 174] ++
  [177, 179, 182, 185, 188, 191, 193, 196, 199, 201, 204, 206, 209, 211, 213, 216] ++
  [218, 220, 222, 224, 226, 228, 230, 232, 234, 235, 237, 239, 240, 241, 243, 244] ++
  [245, 246, 248, 249, 250, 250, 251, 252, 253, 253, 254, 254, 254, 255, 255, 255]

/-- `DEFAULT_SINE_ROM`, rows r = 4 .. 7 of the listing (R52). -/
def defaultQuarter1 : List Nat :=
  [255, 255, 255, 255, 254, 254, 254, 253, 253, 252, 251, 250, 250, 249, 248, 246] ++
  [245, 244, 243, 241, 240, 239, 237, 235, 234, 232, 230, 228, 226, 224, 222, 220] ++
  [218, 216, 213, 211, 209, 206, 204, 201, 199, 196, 193, 191, 188, 185, 182, 179] ++
  [177, 174, 171, 168, 165, 162, 159, 156, 153, 150, 147, 144, 140, 137, 134, 131]

/-- `DEFAULT_SINE_ROM`, rows r = 8 .. 11 of the listing (R52). -/
def defaultQuarter2 : List Nat :=
  [128, 125, 122, 119, 116, 112, 109, 106, 103, 100, 97, 94, 91, 88, 85, 82] ++
  [79, 77, 74, 71, 68, 65, 63, 60, 57, 55, 52, 50, 47, 45, 43, 40] ++
  [38, 36, 34, 32, 30, 28, 26, 24, 22, 21, 19, 17, 16, 15, 13, 12] ++
  [11, 10, 8, 7, 6, 6, 5, 4, 3, 3, 2, 2, 2, 1, 1, 1]

/-- `DEFAULT_SINE_ROM`, rows r = 12 .. 15 of the listing (R52). -/
def defaultQuarter3 : List Nat :=
  [1, 1, 1, 1, 2, 2, 2, 3, 3, 4, 5, 6, 6, 7, 8, 10] ++
  [11, 12, 13, 15, 16, 17, 19, 21, 22, 24, 26, 28, 30, 32, 34, 36] ++
  [38, 40, 43, 45, 47, 50, 52, 55, 57, 60, 63, 65, 68, 71, 74, 77] ++
  [79, 82, 85, 88, 91, 94, 97, 100, 103, 106, 109, 112, 116, 119, 122, 125]

/-- `DEFAULT_SINE_ROM`, 256 entries (R52). -/
def defaultTable : List Nat := defaultQuarter0 ++ defaultQuarter1 ++ defaultQuarter2 ++ defaultQuarter3

/-- What an address that the memory does not list reads as: the default table's byte (R52, log 9). -/
def defaultByte (a : Nat) : Byte := BitVec.ofNat 8 (defaultTable.getD (a % 256) 0)

/-- The listed byte at an address, if the memory lists one. -/
def lookup : Memory → Nat → Option Byte
  | [], _ => none
  | (x, v) :: rest, a => if x = a then some v else lookup rest a

/-- `RomRead(a)` = `SINE_ROM[a mod 256]` for any natural number `a` (R51). -/
def read (m : Memory) (a : Nat) : Byte := (lookup m (a % 256)).getD (defaultByte (a % 256))

/-- The canonical form from address `lo` on: addresses strictly rising and below 256, no entry equal to
what its address reads as when unlisted. -/
def wfFrom (lo : Nat) : Memory → Bool
  | [] => true
  | (x, v) :: rest => decide (lo ≤ x) && decide (x < 256) && decide (v ≠ defaultByte x) && wfFrom (x + 1) rest

/-- Set one entry, keeping the canonical form. Used to build the parameter `SINE_ROM`, which is "constructed once ...,
never mutated" (R51); no operation of the machine calls it. -/
def insert (a : Nat) (b : Byte) : Memory → Memory
  | [] => if b = defaultByte a then [] else [(a, b)]
  | (x, v) :: rest =>
    if a < x then (if b = defaultByte a then (x, v) :: rest else (a, b) :: (x, v) :: rest)
    else if a = x then (if b = defaultByte a then rest else (a, b) :: rest)
    else (x, v) :: insert a b rest

/-- `insert` at the address reduced to the 8-bit ROM address (R51). -/
def write (m : Memory) (a : Nat) (b : Byte) : Memory := insert (a % 256) b m

/-- The first `n` entries of a table laid over the default. -/
def ofTableUpTo (f : Nat → Byte) : Nat → Memory
  | 0 => []
  | n + 1 => write (ofTableUpTo f n) n (f n)

/-- The memory that holds a given 256-entry table (R9: `SINE_ROM` is any function from 0..255 to 0..255). -/
def ofTable (f : Nat → Byte) : Memory := ofTableUpTo f 256

end Sys2Proof.Rom

namespace Sys2Proof

/-- The memory is in canonical form (log 9). -/
def Memory.wf (m : Memory) : Bool := Rom.wfFrom 0 m

end Sys2Proof
end

