-- ==== Sys2Proof/Syntax.lean ====
section
/-! DEFINITION. Syntax.lean: the operations of spec/opcode_table.json, one constructor per row, and the
statements of the stimulus-script language (30_encoding R72, R76, R77, R82, R83). -/

namespace Sys2Proof

/-- The operations, in the order of the table (R70). -/
inductive Instr where
  /-- `RESET` (R91). -/
  | reset
  /-- `NOP` (R100). -/
  | nop
  /-- `WRFREQ d`: publish the UQ8.8 frequency `d` (R101). -/
  | wrfreq (d : Frequency)
  /-- `WRSAMP v`: publish the raw sample `v` (R102). -/
  | wrsamp (v : Sample)
  /-- `WRRSV2 x`: write to the reserved address 2; the operand is ignored (R103). -/
  | wrrsv2 (x : BitVec 16)
  /-- `WRRSV3 x`: write to the reserved address 3; the operand is ignored (R103). -/
  | wrrsv3 (x : BitVec 16)
  /-- `HOLD` (R94). -/
  | hold
  /-- `START` (R131). -/
  | start
  /-- `PSCINC` (R132). -/
  | pscinc
  /-- `CNTDEC` (R133). -/
  | cntdec
  /-- `TICK` (R145). -/
  | tick
  /-- `T_LATCH`, sub-operation 1 of `TICK` (R146). -/
  | tLatch
  /-- `T_PLOAD`, sub-operation 2 of `TICK` when `fnz = 1` (R147). -/
  | tPload
  /-- `T_HALT`, sub-operation 2 of `TICK` when `fnz = 0` (R148). -/
  | tHalt
  /-- `T_WRAP`, sub-operation 3 of `TICK` when `iend = 1` (R149, R150). -/
  | tWrap
  /-- `T_OUT0`, sub-operation 4 of `TICK`, channel 0 (R151). -/
  | tOut0
  /-- `T_OUT1`, sub-operation 4 of `TICK`, channel 1 (R152). -/
  | tOut1
  /-- `T_OUT2`, sub-operation 4 of `TICK`, channel 2 (R153). -/
  | tOut2
  /-- `T_INC`, sub-operation 5 of `TICK` (R154). -/
  | tInc
deriving DecidableEq, Repr

/-- The select `SEL` of the phase-offset multiplexer: three values; `0b11` is never generated (R78, U13). -/
inductive Channel where
  | ch0
  | ch1
  | ch2
deriving DecidableEq, Repr

/-- The two decode domains (R70). -/
inductive Format where
  /-- The 20-bit stimulus word (R71). -/
  | sw
  /-- The 5-bit control word (R75). -/
  | cw
deriving DecidableEq, Repr

/-- A statement of the stimulus script, with the number as written (R82), and the pseudo-statements (R83).
Ranges are checked by `Stmt.wellFormed`: "An operand outside its range is an assembly error, not a truncation". -/
inductive Stmt where
  | rst
  | nop
  | wrfreq (imm : Nat)
  | wrsamp (imm : Nat)
  | wrrsv2 (imm : Nat)
  | wrrsv3 (imm : Nat)
  /-- `CLK n`: `n` times `NOP`. -/
  | clk (n : Nat)
  /-- `PUBHZ h`: `WRFREQ (h * 256)`. -/
  | pubhz (h : Nat)
  /-- `STOP`: `WRFREQ 0`. -/
  | stop
  /-- `RSTN n`: `n` times `RST`. -/
  | rstn (n : Nat)
deriving DecidableEq, Repr

end Sys2Proof
end

