-- ==== Sys2Proof/WellFormed.lean ====
section
/-! DEFINITION. WellFormed.lean: what a parameter set (00_scope R9, R10) and a script statement (30_encoding R82, R83)
must satisfy. An `Instr` is well formed by its type: every operand has the width the encoding gives it. -/

namespace Sys2Proof

/-- The constraints of R10: `F_CLK >= 1`, `PRESCALE >= 1`, `1 <= PW <= 16`; and the ROM in canonical form (log 9). -/
def Config.wellFormed (c : Config) : Bool :=
  decide (1 ≤ c.fClk) && decide (1 ≤ c.prescale) && decide (1 ≤ c.pw) && decide (c.pw ≤ 16) && Memory.wf c.sineRom

/-- The operand ranges of R82 and R83. -/
def Stmt.wellFormed : Stmt → Bool
  | .rst => true
  | .nop => true
  | .wrfreq imm => decide (imm ≤ 0xFFFF)
  | .wrsamp imm => decide (imm ≤ 1023)
  | .wrrsv2 imm => decide (imm ≤ 0xFFFF)
  | .wrrsv3 imm => decide (imm ≤ 0xFFFF)
  | .clk _ => true
  | .pubhz h => decide (h ≤ 255)
  | .stop => true
  | .rstn n => decide (1 ≤ n)

end Sys2Proof
end

