-- ==== Sys2Proof/Decode.lean ====
section
/-! DEFINITION. Decode.lean: the decoders of the two formats (30_encoding R70 to R77), the opcode table's rows, and after
them the encoder. -/

namespace Sys2Proof

/-- `SW[15:0]`, the host write data (R71, R73). -/
def dataField (w : StimulusWord) : BitVec 16 := w.extractLsb' 0 16

/-- `SW[9:0]`, the raw sample; `SW[15:10]` are not examined (R74). -/
def sampleField (w : StimulusWord) : Sample := w.extractLsb' 0 10

/-- A row of spec/opcode_table.json: its format, match and mask. A word hits the row if its masked bits are the match. -/
structure Row where
  format : Format
  mat : Nat
  mask : Nat
deriving DecidableEq, Repr

/-- The word's examined bits are the row's match. -/
def Row.hits (r : Row) (w : Nat) : Bool := Nat.land w r.mask == r.mat

/-- The row of each operation (R72, R76, R77). For `T_OUT0..2` and `T_INC` it is the row printed in the table, the
pattern of `WRAP_MODE = DEAD`; in `CONT` their pattern is `TICK`'s (R77, `tickSchedule`). -/
def rowOf : Instr → Row
  | .reset => ⟨.sw, 0x80000, 0x80000⟩
  | .nop => ⟨.sw, 0x00000, 0xC0000⟩
  | .wrfreq _ => ⟨.sw, 0x40000, 0xF0000⟩
  | .wrsamp _ => ⟨.sw, 0x50000, 0xF0000⟩
  | .wrrsv2 _ => ⟨.sw, 0x60000, 0xF0000⟩
  | .wrrsv3 _ => ⟨.sw, 0x70000, 0xF0000⟩
  | .hold => ⟨.cw, 0b00000, 0b11000⟩
  | .start => ⟨.cw, 0b01000, 0b11000⟩
  | .pscinc => ⟨.cw, 0b10000, 0b10100⟩
  | .cntdec => ⟨.cw, 0b10100, 0b10110⟩
  | .tick => ⟨.cw, 0b10110, 0b10110⟩
  | .tLatch => ⟨.cw, 0b10110, 0b10110⟩
  | .tPload => ⟨.cw, 0b11110, 0b11110⟩
  | .tHalt => ⟨.cw, 0b10110, 0b11110⟩
  | .tWrap => ⟨.cw, 0b10111, 0b10111⟩
  | .tOut0 => ⟨.cw, 0b10110, 0b10111⟩
  | .tOut1 => ⟨.cw, 0b10110, 0b10111⟩
  | .tOut2 => ⟨.cw, 0b10110, 0b10111⟩
  | .tInc => ⟨.cw, 0b10110, 0b10111⟩

/-- Decode of a stimulus word, first match wins (R72). The six patterns cover every word, so the last row is the rest. -/
def decodeSW (w : StimulusWord) : Instr :=
  if w &&& 0x80000#20 = 0x80000#20 then .reset
  else if w &&& 0xC0000#20 = 0x00000#20 then .nop
  else if w &&& 0xF0000#20 = 0x40000#20 then .wrfreq (dataField w)
  else if w &&& 0xF0000#20 = 0x50000#20 then .wrsamp (sampleField w)
  else if w &&& 0xF0000#20 = 0x60000#20 then .wrrsv2 (dataField w)
  else .wrrsv3 (dataField w)

/-- Decode of a control word into the one internal operation of the cycle (R76). The five patterns cover every word. -/
def decodeCW (cw : ControlWord) : Instr :=
  if cw &&& 0b11000#5 = 0b00000#5 then .hold
  else if cw &&& 0b11000#5 = 0b01000#5 then .start
  else if cw &&& 0b10100#5 = 0b10000#5 then .pscinc
  else if cw &&& 0b10110#5 = 0b10100#5 then .cntdec
  else .tick

/-- The sub-operations a control word selects, in the order of R77: none unless it decodes to `TICK`. -/
def tickSchedule (m : WrapMode) (cw : ControlWord) : List Instr :=
  if decodeCW cw = .tick then
    [.tLatch] ++
    (if cw.getLsbD 3 then [.tPload] else [.tHalt]) ++
    (if cw.getLsbD 0 then [.tWrap] else []) ++
    (if cw.getLsbD 0 = false ∨ m = .cont then [.tOut0, .tOut1, .tOut2, .tInc] else [])
  else []

/-- Why bits are no word of a format. Every word of a format's width decodes (R80); only bits beyond the width are rejected. -/
inductive DecodeError where
  /-- A number of 2^20 or more is no stimulus word (R71). -/
  | stimulusWordTooWide
  /-- A number of 2^5 or more is no control word (R75). -/
  | controlWordTooWide
deriving DecidableEq, Repr

/-- The decoder on any bits of a format, read as one number with bit 0 least significant. -/
def decode (fmt : Format) (w : Nat) : Except DecodeError Instr :=
  match fmt with
  | .sw => if w < 2 ^ 20 then .ok (decodeSW (BitVec.ofNat 20 w)) else .error .stimulusWordTooWide
  | .cw => if w < 2 ^ 5 then .ok (decodeCW (BitVec.ofNat 5 w)) else .error .controlWordTooWide

/-- The format whose width, or its width in whole bytes, is the given number of bits (R71, R75, log 10). -/
def formatOfBits (nbits : Nat) : Option Format :=
  if nbits = 20 ∨ nbits = 24 then some .sw
  else if nbits = 5 ∨ nbits = 8 then some .cw
  else none

/-- The instruction the decoder reads from a table word. A sub-operation's word is a word of `TICK` and reads as `TICK` (log 6). -/
def decodeTableWord (nbits w : Nat) : Option Instr :=
  match formatOfBits nbits with
  | none => none
  | some fmt =>
    match decode fmt w with
    | .ok i => some i
    | .error _ => none

/-! ## The encoder -/

/-- An encoded operation: a word of one of the two formats. -/
inductive Encoded where
  | sw (w : StimulusWord)
  | cw (w : ControlWord)
deriving DecidableEq, Repr

/-- The word of an operation: the canonical word of R72 with its operand (R82), or the match of R76 and R77. -/
def encode : Instr → Encoded
  | .reset => .sw 0x80000#20
  | .nop => .sw 0x00000#20
  | .wrfreq d => .sw (0b0100#4 ++ d)
  | .wrsamp v => .sw (0b0101#4 ++ 0#6 ++ v)
  | .wrrsv2 x => .sw (0b0110#4 ++ x)
  | .wrrsv3 x => .sw (0b0111#4 ++ x)
  | .hold => .cw 0b00000#5
  | .start => .cw 0b01000#5
  | .pscinc => .cw 0b10000#5
  | .cntdec => .cw 0b10100#5
  | .tick => .cw 0b10110#5
  | .tLatch => .cw 0b10110#5
  | .tPload => .cw 0b11110#5
  | .tHalt => .cw 0b10110#5
  | .tWrap => .cw 0b10111#5
  | .tOut0 => .cw 0b10110#5
  | .tOut1 => .cw 0b10110#5
  | .tOut2 => .cw 0b10110#5
  | .tInc => .cw 0b10110#5

/-- The decoder on an encoded word. -/
def decodeEncoded : Encoded → Instr
  | .sw w => decodeSW w
  | .cw w => decodeCW w

/-- The format and the number of an encoded word. -/
def Encoded.bits : Encoded → Format × Nat
  | .sw w => (.sw, w.toNat)
  | .cw w => (.cw, w.toNat)

/-- The eight sub-operations of `TICK` (R77): they execute inside a tick and are never the operation of a cycle. -/
def Instr.isSubOperation : Instr → Bool
  | .reset | .nop | .wrfreq _ | .wrsamp _ | .wrrsv2 _ | .wrrsv3 _ => false
  | .hold | .start | .pscinc | .cntdec | .tick => false
  | .tLatch | .tPload | .tHalt | .tWrap | .tOut0 | .tOut1 | .tOut2 | .tInc => true

end Sys2Proof
end

