-- ==== Sys2Proof/Machine/State.lean ====
section
/-! DEFINITION. Machine/State.lean: the state (10_state R20), why a step could stop, and the state after reset (R34). -/

namespace Sys2Proof.Machine

/-- The state: the parameters (R38, log 1), the nine registers of R20, and the model's own two fields for the HOST's words. -/
structure State where
  /-- The static parameters: no operation changes them (R9, R38, log 1). -/
  config : Config
  /-- `FREQ[15:0]`, UQ8.8 (R21). -/
  freq : Frequency
  /-- `PERIOD[PW-1:0]` (R22); its width is a parameter, so it is a number with the bound `State.InWidth` (log 7). -/
  period : Nat
  /-- `INDEX[8:0]` (R23). -/
  index : TableIndex
  /-- `DUTY[0]` (R24). -/
  duty0 : Byte
  /-- `DUTY[1]` (R24). -/
  duty1 : Byte
  /-- `DUTY[2]` (R24). -/
  duty2 : Byte
  /-- `RUN` (R25): `false` is IDLE, `true` is RUNNING. -/
  run : Bool
  /-- `PSC` (R26), with the bound `State.InWidth` (log 7). -/
  psc : Nat
  /-- `CNT[PW-1:0]` (R27), with the bound `State.InWidth` (log 7). -/
  cnt : Nat
  /-- MODEL'S OWN (log 2): the stimulus words the HOST will present, next first. -/
  stimulus : List StimulusWord
  /-- MODEL'S OWN (log 3): the counter the free values are drawn with; every step advances it. -/
  freeCount : Nat
deriving DecidableEq, Repr

/-- Why the machine stops with a fault: never. "The block raises no synchronous exception, has no fault, trap or error
state" (60_exceptions R170), so the type has no constructor (safe). -/
inductive Fault
deriving DecidableEq, Repr

/-- Why an instruction has no meaning. -/
inductive Refusal where
  /-- Raised by an arm of `exec` whose instruction has no meaning in the model; no arm does (safe). -/
  | notModelled (mnemonic : String)
deriving DecidableEq, Repr

/-- `ResetState` (R34, R91) for given parameters, with nothing listed for the HOST to present (log 2, log 3). -/
def State.resetOf (c : Config) : State where
  config := c
  freq := 0x0000#16
  period := c.pmax
  index := 0#9
  duty0 := 0x80#8
  duty1 := 0x80#8
  duty2 := 0x80#8
  run := false
  psc := 0
  cnt := 0
  stimulus := []
  freeCount := 0

/-- The machine right after reset, in the reference configuration (R8, R9, R34, log 1, log 8). -/
def State.reset : State := State.resetOf Config.reference

end Sys2Proof.Machine
end

