-- ==== Sys2Proof/Machine/Operands.lean ====
section
/-! DEFINITION. Machine/Operands.lean: the arithmetic of 42_converters (FSCALE, PCONV, DSCALE), the phase offsets and the
operands a tick reads (44_engine_tick R146, R151 to R153). -/

namespace Sys2Proof.Machine

/-- `clamp(v, lo, hi) = max(lo, min(hi, v))` (R12). -/
def clamp (v lo hi : Nat) : Nat := max lo (min hi v)

/-- `round_half_up(a / b) = (2*a + b) div (2*b)` (R12). -/
def roundHalfUp (a b : Nat) : Nat := (2 * a + b) / (2 * b)

/-- `FSCALE(v) = (v * 30720) div 1023`, a UQ8.8 frequency (R112). -/
def fscale (v : Sample) : Frequency := BitVec.ofNat 16 (v.toNat * 30720 / 1023)

/-- `PCONV(f)` (R114): `K = F_CLK * 256`, `D = PRESCALE * 256 * f`, rounded to nearest, clamped to 1..`PMAX` (R116).
It takes the proof of `f != 0` that every use in the rules has as its guard (R117). -/
def pconv (c : Config) (f : Frequency) (_ : f ≠ 0#16) : Nat :=
  clamp (roundHalfUp (c.fClk * 256) (c.prescale * 256 * f.toNat)) 1 c.pmax

/-- `DSCALE(raw, p)` (R119). -/
def dscale (c : Config) (raw : Byte) (p : Nat) : Byte :=
  if c.dutyScale then BitVec.ofNat 8 (clamp ((raw.toNat * p + 128) / 256) 0 255) else raw

/-- The phase offsets `OFF[0..2] = (0, 85, 170)` (R29). -/
def Channel.offset : Channel → Nat
  | .ch0 => 0
  | .ch1 => 85
  | .ch2 => 170

/-- `RomRead(a)` in the block's ROM (R51). -/
def State.romRead (s : State) (a : Nat) : Byte := Rom.read s.config.sineRom a

/-- The period `p` a tick uses: the new one, or the retained one when the frequency read is 0 (R145, R148). -/
def State.tickPeriod (s : State) : Nat :=
  if h : s.freq = 0#16 then s.period else pconv s.config s.freq h

/-- The local index `i` of a tick's lookups: `INDEX`, or 0 once it has reached the table length (R145, R150). -/
def State.tickIndex (s : State) : Nat := if 256 ≤ s.index.toNat then 0 else s.index.toNat

/-- What step 4 of a tick writes to `DUTY[k]`: `DSCALE(RomRead(i + OFF[k]), p)` (R151 to R153). -/
def State.dutyValue (s : State) (i p : Nat) (k : Channel) : Byte :=
  dscale s.config (s.romRead (i + Channel.offset k)) p

/-- What `PSC` holds after counting (R132). A sum that does not fit the register (only before the first reset, R93) is a
free value of the register's width (log 4). -/
def State.pscNext (s : State) : Nat :=
  if s.psc + 1 < 2 ^ s.config.pscWidth then s.psc + 1
  else Config.freePsc s.freeCount % 2 ^ s.config.pscWidth

end Sys2Proof.Machine
end

