-- ==== Sys2Proof/Machine/Ops.lean ====
section
/-! DEFINITION. Machine/Ops.lean: the named operations on the registers, one home for each write (10_state R20), and how the
two parts of a cycle are put together (40_cycle_step R92). Taking an exception and returning from one do not exist on
this hardware (60_exceptions R170, R174, R175). -/

namespace Sys2Proof.Machine

/-- `FREQ' <- v`, all 16 bits at one edge (R56, R101). -/
def State.publish (s : State) (v : Frequency) : State := { s with freq := v }

/-- The reload multiplexer with `RSEL = 1`: `PERIOD' <- p`, `CNT' <- p`, `PSC' <- 0` (R79, R135). -/
def State.loadTimer (s : State) (p : Nat) : State := { s with period := p, cnt := p, psc := 0 }

/-- The reload multiplexer with `RSEL = 0`: the timer is disabled, `PERIOD` keeps its value (R79, R148). -/
def State.haltTimer (s : State) : State := { s with run := false, psc := 0, cnt := 0 }

/-- `RUN' <- 1` (R131). -/
def State.setRunning (s : State) : State := { s with run := true }

/-- `PSC' <- n` (R132). -/
def State.setPsc (s : State) (n : Nat) : State := { s with psc := n }

/-- `PSC' <- 0`, `CNT' <- n` (R133). -/
def State.setCnt (s : State) (n : Nat) : State := { s with psc := 0, cnt := n }

/-- `INDEX' <- i` (R149, R154). -/
def State.setIndex (s : State) (i : Nat) : State := { s with index := BitVec.ofNat 9 i }

/-- `DUTY[k]' <- v`: the select chooses the register that receives the result (R78). -/
def State.setDuty (s : State) (k : Channel) (v : Byte) : State :=
  match k with
  | .ch0 => { s with duty0 := v }
  | .ch1 => { s with duty1 := v }
  | .ch2 => { s with duty2 := v }

/-- `DUTY[k]` (R24). -/
def State.duty (s : State) : Channel → Byte
  | .ch0 => s.duty0
  | .ch1 => s.duty1
  | .ch2 => s.duty2

/-- `S' <- ResetState`, which does not depend on the registers (R91). The parameters are not affected by reset (R34), nor
are the model's own two fields. -/
def State.toReset (s : State) : State :=
  { State.resetOf s.config with stimulus := s.stimulus, freeCount := s.freeCount }

/-- The state after both parts of a cycle: `FREQ` is the host command's, every other register the internal operation's
(R92: "Their write sets are disjoint"). -/
def State.merge (engine host : State) : State := { engine with freq := host.freq }

/-- The stimulus word sampled at this edge: the next one the HOST lists, or a free value where it lists none (R15, log 2). -/
def State.currentWord (s : State) : StimulusWord :=
  match s.stimulus with
  | w :: _ => w
  | [] => Config.hostWord s.freeCount

/-- The input side moves on to the next cycle: the word is consumed, the next free value is a fresh one (log 2, log 3). -/
def State.nextCycle (s : State) : State := { s with stimulus := s.stimulus.tail, freeCount := s.freeCount + 1 }

/-- Both parts of a cycle have executed on one edge (R92). -/
def combine (engine host : Host.Outcome State Fault Refusal) : Host.Outcome State Fault Refusal :=
  match engine with
  | .next e =>
    match host with
    | .next h => .next (e.merge h)
    | .fault r => .fault r
    | .refused r => .refused r
  | .fault r => .fault r
  | .refused r => .refused r

/-- After an executed cycle the input side moves on. -/
def finish (o : Host.Outcome State Fault Refusal) : Host.Outcome State Fault Refusal :=
  match o with
  | .next t => .next t.nextCycle
  | .fault r => .fault r
  | .refused r => .refused r

end Sys2Proof.Machine
end

