-- ==== Sys2Proof/Machine/HostPort.lean ====
section
/-! DEFINITION. Machine/HostPort.lean: the meanings of `RESET` (40_cycle_step R91) and of the host commands (41_host_port
R100 to R103). A host command writes `FREQ` or nothing (R92). -/

namespace Sys2Proof.Machine

/-- `RESET` (R91). -/
def execReset (s : State) : Host.Outcome State Fault Refusal := .next s.toReset

/-- `NOP`: the host part assigns nothing (R100). -/
def execNop (s : State) : Host.Outcome State Fault Refusal := .next s

/-- `WRFREQ d`: `FREQ' <- d`, no extension, scaling or range check (R73, R101). -/
def execWrfreq (d : Frequency) (s : State) : Host.Outcome State Fault Refusal := .next (s.publish d)

/-- `WRSAMP v`: `FREQ' <- FSCALE(v)` (R102). -/
def execWrsamp (v : Sample) (s : State) : Host.Outcome State Fault Refusal := .next (s.publish (fscale v))

/-- `WRRSV2`: accepted, no effect on any register (R103). -/
def execWrrsv2 (_ : BitVec 16) (s : State) : Host.Outcome State Fault Refusal := .next s

/-- `WRRSV3`: accepted, no effect on any register (R103). -/
def execWrrsv3 (_ : BitVec 16) (s : State) : Host.Outcome State Fault Refusal := .next s

end Sys2Proof.Machine
end

