-- ==== Sys2Proof/Machine/Flags.lean ====
section
/-! DEFINITION. Machine/Flags.lean: the block stores no flag (10_state R31); its conditions are the control word's bits,
computed from the state every cycle (30_encoding R75), and the tick request (60_exceptions R172). -/

namespace Sys2Proof.Machine

/-- `fnz`: `S.FREQ != 0` (R75). -/
def State.fnz (s : State) : Bool := decide (s.freq ≠ 0#16)

/-- `pwrap`: `S.PSC = PRESCALE - 1` (R75); written with a sum, so that it is exact. -/
def State.pwrap (s : State) : Bool := decide (s.psc + 1 = s.config.prescale)

/-- `cexp`: `S.CNT <= 1` (R75). -/
def State.cexp (s : State) : Bool := decide (s.cnt ≤ 1)

/-- `iend`: `S.INDEX >= 256` (R75). -/
def State.iend (s : State) : Bool := decide (256 ≤ s.index.toNat)

/-- `CW[4:0] = {run, fnz, pwrap, cexp, iend}` (R75). -/
def State.controlWord (s : State) : ControlWord :=
  BitVec.ofBool s.run ++ BitVec.ofBool s.fnz ++ BitVec.ofBool s.pwrap ++ BitVec.ofBool s.cexp ++ BitVec.ofBool s.iend

/-- The tick request: `RUN = 1` and `PSC = PRESCALE - 1` and `CNT <= 1` (R134, R172). It is never pending: it is
serviced in its own cycle. -/
def State.tickRequest (s : State) : Bool := s.run && s.pwrap && s.cexp

end Sys2Proof.Machine
end

