-- ==== Sys2Proof/Machine/Tick.lean ====
section
/-! DEFINITION. Machine/Tick.lean: the engine tick and its sub-operations (44_engine_tick R145 to R154). `execTick` is the
normative next-state function of R145. A sub-operation reads the pre-edge state `s` and adds its own register writes
to the post-edge state `t` that is being built (R157); on its own, as an operation of one state, it shows the writes it
makes in the cycle of that state (log 6). In a state that does not select it, it assigns nothing (log 5). -/

namespace Sys2Proof.Machine

/-- Step 2 of a tick: load the new period, or halt the timer when the frequency read is 0 (R145, R147, R148). -/
def State.tickTimer (s : State) : State :=
  if h : s.freq = 0#16 then s.haltTimer else s.loadTimer (pconv s.config s.freq h)

/-- Steps 4 and 5 of a tick with local index `i` and period `p`: three lookups, three duty writes, the increment (R145). -/
def State.tickOutput (s t : State) (i p : Nat) : State :=
  let t0 := t.setDuty .ch0 (s.dutyValue i p .ch0)
  let t1 := t0.setDuty .ch1 (s.dutyValue i p .ch1)
  let t2 := t1.setDuty .ch2 (s.dutyValue i p .ch2)
  t2.setIndex (i + 1)

/-- `TICK(S, S')` (R145). -/
def State.tickState (s : State) : State :=
  if 256 ≤ s.index.toNat then
    match s.config.wrapMode with
    | .dead => s.tickTimer.setIndex 0
    | .cont => s.tickOutput s.tickTimer 0 s.tickPeriod
  else s.tickOutput s.tickTimer s.index.toNat s.tickPeriod

/-- `TICK`, `CW = 1 - 1 1 -` (R145). -/
def execTick (s : State) : Host.Outcome State Fault Refusal :=
  .next (if s.tickRequest = true then s.tickState else s)

/-- The tick reaches steps 4 and 5: `iend = 0`, or `WRAP_MODE = CONT` (R77, R151). -/
def State.reachesOutput (s : State) : Bool := !s.iend || decide (s.config.wrapMode = .cont)

/-- `T_LATCH`: the tick reads `FREQ` once; no register is written (R146). -/
def tLatchWrites (_ t : State) : State := t

/-- `T_PLOAD`: `PERIOD', CNT' <- PCONV(f)`, `PSC' <- 0`; its condition is `f != 0` (R147). -/
def tPloadWrites (s t : State) : State :=
  if h : s.freq ≠ 0#16 then t.loadTimer (pconv s.config s.freq h) else t

/-- `T_HALT`: `RUN', PSC', CNT' <- 0`, `PERIOD` keeps its value; its condition is `f = 0` (R148). -/
def tHaltWrites (s t : State) : State := if s.freq = 0#16 then t.haltTimer else t

/-- `T_WRAP`: in `DEAD` mode `INDEX' <- 0` (R149); in `CONT` mode the local index becomes 0, which `State.tickIndex` gives
the later steps, and no register is written (R150, log 11). -/
def tWrapWrites (s t : State) : State :=
  if s.iend = true then
    match s.config.wrapMode with
    | .dead => t.setIndex 0
    | .cont => t
  else t

/-- `T_OUT0`: `DUTY[0]' <- DSCALE(RomRead(i + 0), p)` (R151). -/
def tOut0Writes (s t : State) : State :=
  if s.reachesOutput = true then t.setDuty .ch0 (s.dutyValue s.tickIndex s.tickPeriod .ch0) else t

/-- `T_OUT1`: `DUTY[1]' <- DSCALE(RomRead(i + 85), p)` (R152). -/
def tOut1Writes (s t : State) : State :=
  if s.reachesOutput = true then t.setDuty .ch1 (s.dutyValue s.tickIndex s.tickPeriod .ch1) else t

/-- `T_OUT2`: `DUTY[2]' <- DSCALE(RomRead(i + 170), p)` (R153). -/
def tOut2Writes (s t : State) : State :=
  if s.reachesOutput = true then t.setDuty .ch2 (s.dutyValue s.tickIndex s.tickPeriod .ch2) else t

/-- `T_INC`: `INDEX' <- i + 1` (R154). -/
def tIncWrites (s t : State) : State :=
  if s.reachesOutput = true then t.setIndex (s.tickIndex + 1) else t

/-- `T_LATCH` (R146). -/
def execTLatch (s : State) : Host.Outcome State Fault Refusal :=
  .next (if s.tickRequest = true then tLatchWrites s s else s)

/-- `T_PLOAD` (R147). -/
def execTPload (s : State) : Host.Outcome State Fault Refusal :=
  .next (if s.tickRequest = true then tPloadWrites s s else s)

/-- `T_HALT` (R148). -/
def execTHalt (s : State) : Host.Outcome State Fault Refusal :=
  .next (if s.tickRequest = true then tHaltWrites s s else s)

/-- `T_WRAP` (R149, R150). -/
def execTWrap (s : State) : Host.Outcome State Fault Refusal :=
  .next (if s.tickRequest = true then tWrapWrites s s else s)

/-- `T_OUT0` (R151). -/
def execTOut0 (s : State) : Host.Outcome State Fault Refusal :=
  .next (if s.tickRequest = true then tOut0Writes s s else s)

/-- `T_OUT1` (R152). -/
def execTOut1 (s : State) : Host.Outcome State Fault Refusal :=
  .next (if s.tickRequest = true then tOut1Writes s s else s)

/-- `T_OUT2` (R153). -/
def execTOut2 (s : State) : Host.Outcome State Fault Refusal :=
  .next (if s.tickRequest = true then tOut2Writes s s else s)

/-- `T_INC` (R154). -/
def execTInc (s : State) : Host.Outcome State Fault Refusal :=
  .next (if s.tickRequest = true then tIncWrites s s else s)

/-- The writes of a sub-operation, by its name; the other operations are no sub-operations and add nothing. -/
def subWrites (i : Instr) (s t : State) : State :=
  match i with
  | .tLatch => tLatchWrites s t
  | .tPload => tPloadWrites s t
  | .tHalt => tHaltWrites s t
  | .tWrap => tWrapWrites s t
  | .tOut0 => tOut0Writes s t
  | .tOut1 => tOut1Writes s t
  | .tOut2 => tOut2Writes s t
  | .tInc => tIncWrites s t
  | .reset | .nop | .wrfreq _ | .wrsamp _ | .wrrsv2 _ | .wrrsv3 _ => t
  | .hold | .start | .pscinc | .cntdec | .tick => t

/-- The sub-operations of a schedule, in order, all reading the pre-edge state `s` (R77, R157). -/
def runSubOperations (s : State) (schedule : List Instr) : State :=
  schedule.foldl (fun t i => subWrites i s t) s

end Sys2Proof.Machine
end

