-- ==== Sys2Proof/Machine/Timer.lean ====
section
/-! DEFINITION. Machine/Timer.lean: the meanings of `HOLD` (40_cycle_step R94), `START`, `PSCINC` and `CNTDEC` (43_timer R131
to R133). In a state whose control word does not select it an operation does not execute and assigns nothing (R13, R93,
log 5). -/

namespace Sys2Proof.Machine

/-- `HOLD`: no assignment (R94). -/
def execHold (s : State) : Host.Outcome State Fault Refusal := .next s

/-- `START`, `CW = 0 1 - - -`: `PERIOD', CNT' <- PCONV(FREQ)`, `PSC' <- 0`, `RUN' <- 1` (R131). -/
def execStart (s : State) : Host.Outcome State Fault Refusal :=
  .next (
    if h : s.run = false ∧ s.freq ≠ 0#16 then (s.loadTimer (pconv s.config s.freq h.2)).setRunning
    else s)

/-- `PSCINC`, `CW = 1 - 0 - -`: `PSC' <- S.PSC + 1` (R132). -/
def execPscinc (s : State) : Host.Outcome State Fault Refusal :=
  .next (if s.run = true ∧ s.pwrap = false then s.setPsc s.pscNext else s)

/-- `CNTDEC`, `CW = 1 - 1 0 -`: `PSC' <- 0`, `CNT' <- S.CNT - 1`, where `S.CNT >= 2` (R133). -/
def execCntdec (s : State) : Host.Outcome State Fault Refusal :=
  .next (if s.run = true ∧ s.pwrap = true ∧ s.cexp = false then s.setCnt (s.cnt - 1) else s)

end Sys2Proof.Machine
end

