-- ==== Sys2Proof/Machine/Dispatch.lean ====
section
/-! DEFINITION. Machine/Dispatch.lean: one arm per operation. -/

namespace Sys2Proof.Machine

def exec (i : Instr) (s : State) : Host.Outcome State Fault Refusal :=
  match i with
  | .reset => Sys2Proof.Machine.execReset s
  | .nop => Sys2Proof.Machine.execNop s
  | .wrfreq d => Sys2Proof.Machine.execWrfreq d s
  | .wrsamp v => Sys2Proof.Machine.execWrsamp v s
  | .wrrsv2 x => Sys2Proof.Machine.execWrrsv2 x s
  | .wrrsv3 x => Sys2Proof.Machine.execWrrsv3 x s
  | .hold => Sys2Proof.Machine.execHold s
  | .start => Sys2Proof.Machine.execStart s
  | .pscinc => Sys2Proof.Machine.execPscinc s
  | .cntdec => Sys2Proof.Machine.execCntdec s
  | .tick => Sys2Proof.Machine.execTick s
  | .tLatch => Sys2Proof.Machine.execTLatch s
  | .tPload => Sys2Proof.Machine.execTPload s
  | .tHalt => Sys2Proof.Machine.execTHalt s
  | .tWrap => Sys2Proof.Machine.execTWrap s
  | .tOut0 => Sys2Proof.Machine.execTOut0 s
  | .tOut1 => Sys2Proof.Machine.execTOut1 s
  | .tOut2 => Sys2Proof.Machine.execTOut2 s
  | .tInc => Sys2Proof.Machine.execTInc s

end Sys2Proof.Machine
end

