-- ==== Sys2Proof/Machine/Cycle.lean ====
section
/-! DEFINITION. Machine/Cycle.lean: one clock cycle (40_cycle_step R90 to R93), and how a word of either format is put where
the next cycle takes it from. -/

namespace Sys2Proof.Machine

/-- `EnginePart`: exactly one internal operation, chosen by the control word (R93). -/
def enginePart (s : State) : Host.Outcome State Fault Refusal := exec (decodeCW s.controlWord) s

/-- `HostPart`: exactly one host command, chosen by the stimulus word (R90). -/
def hostPart (s : State) : Host.Outcome State Fault Refusal := exec (decodeSW s.currentWord) s

/-- One application of `Step(S, SW)` (R90): `RESET` alone if `SW[19] = 1` (R91); otherwise both parts on the pre-edge state
(R92). -/
def runCycle (s : State) : Host.Outcome State Fault Refusal :=
  if decodeSW s.currentWord = .reset then finish (exec .reset s)
  else finish (combine (enginePart s) (hostPart s))

/-- The word becomes the one the HOST presents at the next edge (log 2). -/
def State.withStimulusWord (s : State) (w : StimulusWord) : State := { s with stimulus := w :: s.stimulus.tail }

/-- The registers the control word is computed from hold values that make it `cw` (R75), and the HOST presents a `NOP`, so
that the next cycle executes the internal operation `cw` selects (log 10). Two words no state within the widths has: with
`PRESCALE = 1` no state has `pwrap = 0` (R26), and the word is not placed; with `PW = 1` no `CNT` of one bit gives `cexp = 0`
(R27), and the word is placed all the same, with `CNT = 2` beyond the width (DESIGN CHOICE, log 10). `step` does not use
this helper. -/
def State.withControlWord (s : State) (cw : ControlWord) : State :=
  { s with
    run := cw.getLsbD 4
    freq := if cw.getLsbD 3 then (if s.freq = 0#16 then 1#16 else s.freq) else 0#16
    psc := if cw.getLsbD 2 then s.config.prescale - 1 else (if s.pwrap then 0 else s.psc)
    cnt := if cw.getLsbD 1 then 1 else max s.cnt 2
    index := if cw.getLsbD 0 then 256#9 else (if s.iend then 0#9 else s.index)
    stimulus := 0x00000#20 :: s.stimulus.tail }

/-- A table word of either format placed where the next cycle takes it from. -/
def State.withTableWord (s : State) (nbits w : Nat) : State :=
  match formatOfBits nbits with
  | some .sw => s.withStimulusWord (BitVec.ofNat 20 w)
  | some .cw => s.withControlWord (BitVec.ofNat 5 w)
  | none => s

end Sys2Proof.Machine
end

