-- ==== Sys2Proof/Machine/Script.lean ====
section
/-! DEFINITION. Machine/Script.lean: the stimulus-script language (30_encoding R82, R83): expansion of the pseudo-statements,
the assembler, the disassembler, and the reading of a script's text. -/

namespace Sys2Proof.Script

/-- A statement as whole statements of R82 (R83). -/
def expand : Stmt → List Stmt
  | .rst => [.rst]
  | .nop => [.nop]
  | .wrfreq imm => [.wrfreq imm]
  | .wrsamp imm => [.wrsamp imm]
  | .wrrsv2 imm => [.wrrsv2 imm]
  | .wrrsv3 imm => [.wrrsv3 imm]
  | .clk n => List.replicate n .nop
  | .pubhz h => [.wrfreq (h * 256)]
  | .stop => [.wrfreq 0]
  | .rstn n => List.replicate n .rst

/-- The number a whole statement assembles to (R82); pseudo-statements have none of their own. -/
def wordOf : Stmt → Option Nat
  | .rst => some 0x80000
  | .nop => some 0x00000
  | .wrfreq imm => some (0x40000 + imm)
  | .wrsamp imm => some (0x50000 + imm)
  | .wrrsv2 imm => some (0x60000 + imm)
  | .wrrsv3 imm => some (0x70000 + imm)
  | .clk _ => none
  | .pubhz _ => none
  | .stop => none
  | .rstn _ => none

/-- The words of a statement, one a cycle; none if an operand is out of range (R82). -/
def assemble (st : Stmt) : Option (List StimulusWord) :=
  if st.wellFormed then some ((expand st).filterMap wordOf |>.map (BitVec.ofNat 20)) else none

/-- The words of a script, in order from cycle 0 (R82); none if any statement is ill formed. -/
def assembleAll : List Stmt → Option (List StimulusWord)
  | [] => some []
  | st :: rest =>
    match assemble st, assembleAll rest with
    | some ws, some more => some (ws ++ more)
    | _, _ => none

/-- "The disassembly of a word is the statement of its first matching row in rule R72, with unexamined bits dropped" (R82):
the operand of a reserved write is not examined, so it reads as 0 (log 12). -/
def disassemble (w : StimulusWord) : Stmt :=
  match decodeSW w with
  | .reset => .rst
  | .wrfreq d => .wrfreq d.toNat
  | .wrsamp v => .wrsamp v.toNat
  | .wrrsv2 _ => .wrrsv2 0
  | .wrrsv3 _ => .wrrsv3 0
  | .nop => .nop
  | .hold | .start | .pscinc | .cntdec | .tick => .nop
  | .tLatch | .tPload | .tHalt | .tWrap | .tOut0 | .tOut1 | .tOut2 | .tInc => .nop

/-! ## The text of a script: one statement a line, `;` starts a comment (R82, D25, log 12) -/

/-- A finished token, if it has any character. -/
def pushToken (acc : List Char) (rest : List (List Char)) : List (List Char) :=
  if acc.isEmpty then rest else acc.reverse :: rest

/-- The tokens of a line up to its comment. -/
def tokens : List Char → List Char → List (List Char)
  | [], acc => pushToken acc []
  | c :: cs, acc =>
    if c = ';' then pushToken acc []
    else if c = ' ' ∨ c = '\t' ∨ c = '\r' then pushToken acc (tokens cs [])
    else tokens cs (c :: acc)

/-- The value of a digit in a base of at most 16. -/
def digit (base : Nat) (c : Char) : Option Nat :=
  let n := c.toNat
  let v := if 48 ≤ n ∧ n ≤ 57 then n - 48
    else if 97 ≤ n ∧ n ≤ 102 then n - 87
    else if 65 ≤ n ∧ n ≤ 70 then n - 55
    else 16
  if v < base then some v else none

/-- The value of a string of digits. -/
def digits (base : Nat) : List Char → Nat → Option Nat
  | [], acc => some acc
  | c :: cs, acc =>
    match digit base c with
    | some v => digits base cs (acc * base + v)
    | none => none

/-- A number: decimal, or hexadecimal after `0x` (R82). -/
def number : List Char → Option Nat
  | [] => none
  | '0' :: 'x' :: [] => none
  | '0' :: 'x' :: cs => digits 16 cs 0
  | cs => digits 10 cs 0

/-- A statement with no operand, by its name. -/
def bareStatement (k : List Char) : Option Stmt :=
  if k = ['R', 'S', 'T'] then some .rst
  else if k = ['N', 'O', 'P'] then some .nop
  else if k = ['S', 'T', 'O', 'P'] then some .stop
  else none

/-- A statement with one operand, by its name. -/
def operandStatement (k : List Char) (n : Nat) : Option Stmt :=
  if k = ['W', 'R', 'F', 'R', 'E', 'Q'] then some (.wrfreq n)
  else if k = ['W', 'R', 'S', 'A', 'M', 'P'] then some (.wrsamp n)
  else if k = ['W', 'R', 'R', 'S', 'V', '2'] then some (.wrrsv2 n)
  else if k = ['W', 'R', 'R', 'S', 'V', '3'] then some (.wrrsv3 n)
  else if k = ['C', 'L', 'K'] then some (.clk n)
  else if k = ['P', 'U', 'B', 'H', 'Z'] then some (.pubhz n)
  else if k = ['R', 'S', 'T', 'N'] then some (.rstn n)
  else none

/-- The statements of a line: none on an empty line or a comment, one otherwise; `none` is an assembly error. -/
def parseLine (line : List Char) : Option (List Stmt) :=
  match tokens line [] with
  | [] => some []
  | [k] => (bareStatement k).map fun st => [st]
  | [k, v] =>
    match number v with
    | some n => (operandStatement k n).map fun st => [st]
    | none => none
  | _ => none

/-- The statements of a script's lines; `none` if a line is in error. -/
def parseLines : List (List Char) → Option (List Stmt)
  | [] => some []
  | l :: rest =>
    match parseLine l, parseLines rest with
    | some a, some b => some (a ++ b)
    | _, _ => none

/-- The stimulus words of a script's text. -/
def assembleText (lines : List (List Char)) : Option (List StimulusWord) :=
  match parseLines lines with
  | some sts => assembleAll sts
  | none => none

end Sys2Proof.Script
end

