-- ==== Sys2Proof/Machine/Outputs.lean ====
section
/-! DEFINITION. Machine/Outputs.lean: the output ports, functions of the pre-edge state (10_state R36, 40_cycle_step R95). -/

namespace Sys2Proof.Machine

/-- The values on the output ports in one cycle (R36). -/
structure Outputs where
  duty0_o : Byte
  duty1_o : Byte
  duty2_o : Byte
  period_o : Nat
  run_o : Bool
  tick_o : Bool
deriving DecidableEq, Repr

/-- The output ports of the cycle that starts in `s`: copies of registers, and `tick_o = 1` exactly when `rst = 0` and the
step will execute `TICK` (R36, R95). -/
def State.outputs (s : State) : Outputs where
  duty0_o := s.duty0
  duty1_o := s.duty1
  duty2_o := s.duty2
  period_o := s.period
  run_o := s.run
  tick_o := !s.currentWord.getLsbD 19 && s.tickRequest

end Sys2Proof.Machine
end

