-- ==== Sys2Proof/Safety.lean ====
section
/-! DEFINITION. Safety.lean: the terms claims use: the register widths (10_state R20), the invariants of R33, well-started
runs (40_cycle_step R96), publishes (00_scope, glossary), and cycles without reset. -/

namespace Sys2Proof.Machine

/-- Every register holds a value of its width (R20); `FREQ`, `INDEX`, `DUTY` and `RUN` do by their types. -/
def State.InWidth (s : State) : Prop :=
  s.config.wellFormed = true ∧ s.period ≤ s.config.pmax ∧ s.cnt ≤ s.config.pmax ∧ s.psc < 2 ^ s.config.pscWidth

/-- The invariants (a) to (e) of R33, for parameters that meet R10. -/
structure State.Inv (s : State) : Prop where
  /-- The parameters meet R10. -/
  config_wellFormed : s.config.wellFormed = true
  /-- (a) `1 <= PERIOD <= PMAX`. -/
  period_pos : 1 ≤ s.period
  period_le : s.period ≤ s.config.pmax
  /-- (b) `0 <= INDEX <= 256`. -/
  index_le : s.index.toNat ≤ 256
  /-- (c) `RUN = 1` implies `1 <= CNT <= PERIOD`. -/
  running : s.run = true → 1 ≤ s.cnt ∧ s.cnt ≤ s.period
  /-- (d) `RUN = 0` implies `PSC = 0` and `CNT = 0`. -/
  idle : s.run = false → s.psc = 0 ∧ s.cnt = 0
  /-- (e) `0 <= PSC <= PRESCALE - 1`. -/
  psc_lt : s.psc < s.config.prescale

/-- The state a run starts from is well started: its first stimulus word is a `RESET` (R96). -/
def State.WellStarted (s : State) : Prop := s.config.wellFormed = true ∧ s.currentWord.getLsbD 19 = true

/-- The HOST lists the next `n` words and none of them has `rst = 1`. -/
def State.NoResetFor (s : State) (n : Nat) : Prop :=
  n ≤ s.stimulus.length ∧ ∀ w ∈ s.stimulus.take n, w.getLsbD 19 = false

/-- The frequency a host command publishes: "publish" is "a `WRFREQ` or `WRSAMP` command" (00_scope, glossary; R101, R102). -/
def published : Instr → Option Frequency
  | .wrfreq d => some d
  | .wrsamp v => some (fscale v)
  | .reset | .nop | .wrrsv2 _ | .wrrsv3 _ => none
  | .hold | .start | .pscinc | .cntdec | .tick => none
  | .tLatch | .tPload | .tHalt | .tWrap | .tOut0 | .tOut1 | .tOut2 | .tInc => none

/-- The HOST lists the next `n` words and none of them is a reset or a publish. -/
def State.NoPublishFor (s : State) (n : Nat) : Prop :=
  n ≤ s.stimulus.length ∧ ∀ w ∈ s.stimulus.take n, w.getLsbD 19 = false ∧ published (decodeSW w) = none

/-- Every state of the run from `s`, after any number of cycles, satisfies `P`. -/
def Always (P : State → Prop) (s : State) : Prop :=
  ∀ n t, Host.Core.run Sys2Proof.core n s = .next t → P t

end Sys2Proof.Machine
end

