-- ==== Sys2Proof/Certificates/Slice0/Obligations.lean ====
section
/-! DEFINITION. Certificates/Slice0/Obligations.lean: the statements about the model, from the numbered rules of spec/. -/

open Sys2Proof Sys2Proof.Machine

/-! ## Reset, the cycle and its parts -/

/-- R34: the nine registers after reset, in the reference configuration, where `PMAX = 255`. -/
def Obligations.ResetStateHoldsTheTableOfValues : Prop :=
  State.reset.freq = 0x0000#16 ∧ State.reset.period = 255 ∧ State.reset.index = 0#9 ∧
  State.reset.duty0 = 0x80#8 ∧ State.reset.duty1 = 0x80#8 ∧ State.reset.duty2 = 0x80#8 ∧
  State.reset.run = false ∧ State.reset.psc = 0 ∧ State.reset.cnt = 0

/-- R91, R190: `RESET` loads every register, from every state and for every parameter setting, keeps the parameters, and in
a cycle with `rst = 1` it is all that happens, whatever the other bits of the word and whatever the control word. -/
def Obligations.ResetOverridesTheCycle : Prop :=
  ∀ s : State,
    exec .reset s = .next { s with
      freq := 0x0000#16, period := 2 ^ s.config.pw - 1, index := 0#9, duty0 := 0x80#8, duty1 := 0x80#8, duty2 := 0x80#8,
      run := false, psc := 0, cnt := 0 } ∧
    (s.currentWord.getLsbD 19 = true → step s = .next { s with
      freq := 0x0000#16, period := 2 ^ s.config.pw - 1, index := 0#9, duty0 := 0x80#8, duty1 := 0x80#8, duty2 := 0x80#8,
      run := false, psc := 0, cnt := 0, stimulus := s.stimulus.tail, freeCount := s.freeCount + 1 })

/-- R90: the step is defined for every state and every stimulus word; it never stops (R170). -/
def Obligations.EveryStepAnswersANextState : Prop := ∀ s : State, ∃ t, step s = .next t

/-- R92, R93: a step runs the decoded operations. In a cycle with `rst = 0` the internal operation that the control word
decodes to and the host command that the stimulus word decodes to both execute on the pre-edge state; the next state has
the host command's `FREQ` and the internal operation's other registers. -/
def Obligations.StepRunsTheTwoDecodedOperations : Prop :=
  ∀ s e h : State, s.currentWord.getLsbD 19 = false →
    exec (decodeCW s.controlWord) s = .next e → exec (decodeSW s.currentWord) s = .next h →
    step s = .next { e with freq := h.freq, stimulus := e.stimulus.tail, freeCount := e.freeCount + 1 }

/-- R93: the dispatch of the internal operation, in the order of its tests. -/
def Obligations.EngineDispatchFollowsItsTests : Prop :=
  ∀ s : State, decodeCW s.controlWord =
    if s.run = false then (if s.freq = 0x0000#16 then Instr.hold else Instr.start)
    else if s.psc + 1 ≠ s.config.prescale then Instr.pscinc
    else if 2 ≤ s.cnt then Instr.cntdec
    else Instr.tick

/-- R32, R92: a host command writes `FREQ` or nothing, an internal operation (and a sub-operation of a tick) never `FREQ`. -/
def Obligations.HostAndEngineWriteDisjointRegisters : Prop :=
  ∀ (i : Instr) (s t : State), exec i s = .next t →
    ((rowOf i).format = .sw → i ≠ .reset → t = { s with freq := t.freq }) ∧
    ((rowOf i).format = .cw → t.freq = s.freq)

/-- R51: no operation, including `RESET`, changes the ROM: every address reads after as it read before. The parameters and
the model's own two fields are left alone too (log 1, log 2, log 3). -/
def Obligations.OperationsKeepRomAndParameters : Prop :=
  ∀ (i : Instr) (s t : State), exec i s = .next t →
    (∀ a, t.romRead a = s.romRead a) ∧ t.config = s.config ∧ t.stimulus = s.stimulus ∧ t.freeCount = s.freeCount

/-- Log 5, the model's reading: an internal operation that the control word does not select, and a sub-operation that the
tick's schedule does not hold, does not execute in that state and assigns nothing. -/
def Obligations.UnselectedOperationsAssignNothing : Prop :=
  ∀ (i : Instr) (s : State), (rowOf i).format = .cw →
    (i.isSubOperation = false → decodeCW s.controlWord ≠ i → exec i s = .next s) ∧
    (i.isSubOperation = true → i ∉ tickSchedule s.config.wrapMode s.controlWord → exec i s = .next s)

/-! ## Host commands -/

/-- R100: `NOP` assigns nothing, and the internal operation of the cycle still executes. -/
def Obligations.NopLeavesTheCycleToTheEngine : Prop :=
  (∀ s : State, exec .nop s = .next s) ∧
  ∀ s e : State, s.currentWord &&& 0xC0000#20 = 0x00000#20 → exec (decodeCW s.controlWord) s = .next e →
    step s = .next { e with stimulus := e.stimulus.tail, freeCount := e.freeCount + 1 }

/-- R101: `WRFREQ d` stores its 16 bits in `FREQ`, unchanged, and writes nothing else. -/
def Obligations.WrfreqPublishesItsOperand : Prop :=
  ∀ (d : Frequency) (s : State), exec (.wrfreq d) s = .next { s with freq := d }

/-- R102: `WRSAMP v` stores `(v * 30720) div 1023` in `FREQ`, never above `0x7800`, and writes nothing else. -/
def Obligations.WrsampPublishesTheScaledSample : Prop :=
  ∀ (v : Sample) (s : State), ∃ f : Frequency, exec (.wrsamp v) s = .next { s with freq := f } ∧
    f.toNat = v.toNat * 30720 / 1023 ∧ f.toNat ≤ 0x7800

/-- R103: a write to a reserved address has no effect on any register or output; a cycle that presents one has the same
outputs and the same next state as a cycle that presents `NOP`. -/
def Obligations.ReservedWritesAreNop : Prop :=
  ∀ (x : BitVec 16) (s : State), exec (.wrrsv2 x) s = .next s ∧ exec (.wrrsv3 x) s = .next s ∧
    (s.withStimulusWord (0b0110#4 ++ x)).outputs = (s.withStimulusWord 0x00000#20).outputs ∧
    (s.withStimulusWord (0b0111#4 ++ x)).outputs = (s.withStimulusWord 0x00000#20).outputs ∧
    step (s.withStimulusWord (0b0110#4 ++ x)) = step (s.withStimulusWord 0x00000#20) ∧
    step (s.withStimulusWord (0b0111#4 ++ x)) = step (s.withStimulusWord 0x00000#20)

/-- R61: a publish (a `WRFREQ` or a `WRSAMP`) in the cycle of a `START` or of a `TICK`: the operation does what it does on the
old frequency, be it zero or not, and the new value is in `FREQ` after the edge; while the HOST neither publishes nor resets it
stays there, and the next `START` or `TICK` uses it. -/
def Obligations.SameCyclePublishReadsOldWritesNew : Prop :=
  ∀ (s t : State) (d : Frequency),
    (decodeSW s.currentWord = .wrfreq d ∨ ∃ v, decodeSW s.currentWord = .wrsamp v ∧ d = fscale v) →
    (decodeCW s.controlWord = .start ∨ decodeCW s.controlWord = .tick) → step s = .next t →
    (∃ e, exec (decodeCW s.controlWord) s = .next e ∧
      t = { e with freq := d, stimulus := e.stimulus.tail, freeCount := e.freeCount + 1 }) ∧
    (∀ h : s.freq ≠ 0x0000#16, t.period = pconv s.config s.freq h ∧ t.cnt = pconv s.config s.freq h ∧ t.run = true) ∧
    (s.freq = 0x0000#16 → t.period = s.period ∧ t.cnt = 0 ∧ t.run = false) ∧
    ∀ (n : Nat) (u : State), t.NoPublishFor n → Host.Core.run Sys2Proof.core n t = .next u →
      u.freq = d ∧ ∀ v : State, (decodeCW u.controlWord = .start ∨ decodeCW u.controlWord = .tick) →
        exec (decodeCW u.controlWord) u = .next v →
        (∀ h : d ≠ 0x0000#16, v.period = pconv u.config d h) ∧ (d = 0x0000#16 → v.run = false)

/-! ## The timer -/

/-- R94: `HOLD` assigns nothing. An idle block with `FREQ = 0` runs it, and a cycle without reset leaves every ENGINE-owned
register as it is, and `FREQ` as the host command leaves it: the value published, or 0 still where none is. So the block
stays in `HOLD` exactly until a non-zero publish or a reset. -/
def Obligations.HoldKeepsTheIdleState : Prop :=
  (∀ s : State, exec .hold s = .next s) ∧
  ∀ s : State, s.run = false → s.freq = 0x0000#16 → decodeCW s.controlWord = .hold ∧
    (s.currentWord.getLsbD 19 = false → ∃ f : Frequency,
      step s = .next { s with freq := f, stimulus := s.stimulus.tail, freeCount := s.freeCount + 1 } ∧
      (decodeSW s.currentWord = .wrfreq f ∨ (∃ v, decodeSW s.currentWord = .wrsamp v ∧ f = fscale v) ∨
        f = 0x0000#16 ∧ (∀ d, decodeSW s.currentWord ≠ .wrfreq d) ∧ ∀ v, decodeSW s.currentWord ≠ .wrsamp v)) ∧
    (s.currentWord &&& 0xC0000#20 = 0x00000#20 →
      step s = .next { s with stimulus := s.stimulus.tail, freeCount := s.freeCount + 1 })

/-- R131: `START` leaves IDLE in any cycle with `RUN = 0` and `FREQ != 0`: `PERIOD` and `CNT` become `PCONV(FREQ)`, `PSC` 0, `RUN` 1;
`INDEX`, `DUTY` and `FREQ` are not touched. -/
def Obligations.StartLoadsThePeriodAndRuns : Prop :=
  ∀ (s : State) (h : s.freq ≠ 0x0000#16), s.run = false → decodeCW s.controlWord = .start ∧
    exec .start s = .next { s with
      period := pconv s.config s.freq h, cnt := pconv s.config s.freq h, psc := 0, run := true }

/-- R132: `PSCINC` adds 1 to `PSC` and changes nothing else, wherever the sum fits the register; under the invariant
`PSC <= PRESCALE - 1` it always does, so there is no wrap; with `PRESCALE = 1` it never executes. -/
def Obligations.PscincCountsThePrescaler : Prop :=
  (∀ s : State, s.run = true → s.psc + 1 ≠ s.config.prescale →
    (s.psc + 1 < 2 ^ s.config.pscWidth → exec .pscinc s = .next { s with psc := s.psc + 1 }) ∧
    (s.psc < s.config.prescale →
      exec .pscinc s = .next { s with psc := s.psc + 1 } ∧ s.psc + 1 ≤ s.config.prescale - 1)) ∧
  ∀ s : State, s.config.prescale = 1 → s.psc < 2 ^ s.config.pscWidth → decodeCW s.controlWord ≠ .pscinc

/-- Log 4, the model's choice: where the sum does not fit `PSC` (only before the first reset), `PSCINC` still completes and
`PSC` holds some value of its width. -/
def Obligations.PscincBeyondTheWidthHoldsSomeValue : Prop :=
  ∀ s : State, s.run = true → s.psc + 1 ≠ s.config.prescale → 2 ^ s.config.pscWidth ≤ s.psc + 1 →
    ∃ n, n < 2 ^ s.config.pscWidth ∧ exec .pscinc s = .next { s with psc := n }

/-- R133: `CNTDEC` clears `PSC` and takes 1 from `CNT`, which stays at least 1; nothing else changes. -/
def Obligations.CntdecCountsDown : Prop :=
  ∀ s : State, s.run = true → s.psc + 1 = s.config.prescale → 2 ≤ s.cnt →
    exec .cntdec s = .next { s with psc := 0, cnt := s.cnt - 1 } ∧ 1 ≤ s.cnt - 1

/-- R136: after a `START` or a `TICK` that does not halt, loading the period `p`, the next `TICK` executes exactly
`p * PRESCALE` cycles later, whatever the HOST does in between but reset. -/
def Obligations.TicksAreAPeriodApart : Prop :=
  ∀ (s : State) (h : s.freq ≠ 0x0000#16), s.config.wellFormed = true →
    (s.run = false ∨ s.tickRequest = true) →
    s.NoResetFor (pconv s.config s.freq h * s.config.prescale + 1) →
    ∀ n, 1 ≤ n → n ≤ pconv s.config s.freq h * s.config.prescale →
      ∃ t, Host.Core.run Sys2Proof.core n s = .next t ∧
        (decodeCW t.controlWord = .tick ↔ n = pconv s.config s.freq h * s.config.prescale)

/-! ## The tick -/

/-- R145 with R147: a tick with a non-zero frequency below the table length: the period is recomputed and reloaded, the
three lookups are written scaled by the new period, the index advances by 1, `FREQ` and `RUN` stay. -/
def Obligations.TickLoadsAndSteps : Prop :=
  ∀ (s : State) (h : s.freq ≠ 0x0000#16), s.run = true → s.psc + 1 = s.config.prescale → s.cnt ≤ 1 → s.index.toNat < 256 →
    exec .tick s = .next { s with
      period := pconv s.config s.freq h, cnt := pconv s.config s.freq h, psc := 0,
      duty0 := dscale s.config (s.romRead s.index.toNat) (pconv s.config s.freq h),
      duty1 := dscale s.config (s.romRead (s.index.toNat + 85)) (pconv s.config s.freq h),
      duty2 := dscale s.config (s.romRead (s.index.toNat + 170)) (pconv s.config s.freq h),
      index := s.index + 1#9 }

/-- R145 with R148: a tick that reads frequency 0 disables the timer, keeps `PERIOD`, and still performs its lookups, scaled
by the kept period, and its increment. -/
def Obligations.TickHaltsOnFrequencyZero : Prop :=
  ∀ s : State, s.freq = 0x0000#16 → s.run = true → s.psc + 1 = s.config.prescale → s.cnt ≤ 1 → s.index.toNat < 256 →
    exec .tick s = .next { s with
      run := false, cnt := 0, psc := 0,
      duty0 := dscale s.config (s.romRead s.index.toNat) s.period,
      duty1 := dscale s.config (s.romRead (s.index.toNat + 85)) s.period,
      duty2 := dscale s.config (s.romRead (s.index.toNat + 170)) s.period,
      index := s.index + 1#9 }

/-- R145 with R149: in `DEAD` mode the tick that finds the index at the table length reloads or halts the timer, sets the
index to 0 and writes no duty register. -/
def Obligations.DeadTickWritesNoDuty : Prop :=
  ∀ s : State, s.config.wrapMode = .dead → s.run = true → s.psc + 1 = s.config.prescale → s.cnt ≤ 1 → 256 ≤ s.index.toNat →
    (∀ h : s.freq ≠ 0x0000#16, exec .tick s = .next { s with
      period := pconv s.config s.freq h, cnt := pconv s.config s.freq h, psc := 0, index := 0#9 }) ∧
    (s.freq = 0x0000#16 → exec .tick s = .next { s with run := false, cnt := 0, psc := 0, index := 0#9 })

/-- R145 with R150: in `CONT` mode that tick outputs entries 0, 85 and 170 and leaves the index at 1. -/
def Obligations.ContinuedTickOutputsEntryZero : Prop :=
  ∀ s : State, s.config.wrapMode = .cont → s.run = true → s.psc + 1 = s.config.prescale → s.cnt ≤ 1 → 256 ≤ s.index.toNat →
    (∀ h : s.freq ≠ 0x0000#16, exec .tick s = .next { s with
      period := pconv s.config s.freq h, cnt := pconv s.config s.freq h, psc := 0,
      duty0 := dscale s.config (s.romRead 0) (pconv s.config s.freq h),
      duty1 := dscale s.config (s.romRead 85) (pconv s.config s.freq h),
      duty2 := dscale s.config (s.romRead 170) (pconv s.config s.freq h), index := 1#9 }) ∧
    (s.freq = 0x0000#16 → exec .tick s = .next { s with
      run := false, cnt := 0, psc := 0,
      duty0 := dscale s.config (s.romRead 0) s.period, duty1 := dscale s.config (s.romRead 85) s.period,
      duty2 := dscale s.config (s.romRead 170) s.period, index := 1#9 })

/-- R77, R145, R157: the normative next-state function of a tick is the sequence of the sub-operations that the control word
selects, each reading the pre-edge state and adding its own writes. -/
def Obligations.TickIsTheSequenceOfItsSubOperations : Prop :=
  ∀ s : State, decodeCW s.controlWord = .tick →
    exec .tick s = .next (runSubOperations s (tickSchedule s.config.wrapMode s.controlWord))

/-- R146: `T_LATCH` reads `FREQ` and writes no register. -/
def Obligations.LatchWritesNoRegister : Prop :=
  ∀ s : State, s.tickRequest = true → exec .tLatch s = .next s

/-- R147: `T_PLOAD` loads `PCONV(f)` into `PERIOD` and `CNT` and clears `PSC`. -/
def Obligations.PloadLoadsTheTimer : Prop :=
  ∀ (s : State) (h : s.freq ≠ 0x0000#16), s.tickRequest = true →
    exec .tPload s = .next { s with period := pconv s.config s.freq h, cnt := pconv s.config s.freq h, psc := 0 }

/-- R148: `T_HALT` clears `RUN`, `PSC` and `CNT` and keeps `PERIOD`. -/
def Obligations.HaltDisablesTheTimer : Prop :=
  ∀ s : State, s.tickRequest = true → s.freq = 0x0000#16 → exec .tHalt s = .next { s with run := false, psc := 0, cnt := 0 }

/-- R149, R150 (log 11): `T_WRAP` sets `INDEX` to 0 in `DEAD` mode; in `CONT` mode it writes no register, its effect being that
the later steps of the tick use the local index 0, which their own rules write out. -/
def Obligations.WrapResetsTheIndex : Prop :=
  ∀ s : State, s.tickRequest = true → 256 ≤ s.index.toNat →
    (s.config.wrapMode = .dead → exec .tWrap s = .next { s with index := 0#9 }) ∧
    (s.config.wrapMode = .cont → exec .tWrap s = .next s ∧ exec .tInc s = .next { s with index := 1#9 })

/-- R151, R152, R153: each of the three output sub-operations writes its own duty register, from the ROM entry at the local
index plus its offset, scaled by the period step 2 gives; `i` and `p` are the tick's locals in every case of its steps. -/
def Obligations.OutputsWriteTheirOwnDutyRegister : Prop :=
  ∀ (s : State) (i p : Nat), s.tickRequest = true →
    (s.index.toNat < 256 ∧ i = s.index.toNat ∨ s.config.wrapMode = .cont ∧ 256 ≤ s.index.toNat ∧ i = 0) →
    ((∃ h : s.freq ≠ 0x0000#16, p = pconv s.config s.freq h) ∨ s.freq = 0x0000#16 ∧ p = s.period) →
    exec .tOut0 s = .next { s with duty0 := dscale s.config (s.romRead i) p } ∧
    exec .tOut1 s = .next { s with duty1 := dscale s.config (s.romRead (i + 85)) p } ∧
    exec .tOut2 s = .next { s with duty2 := dscale s.config (s.romRead (i + 170)) p }

/-- R154: `T_INC` leaves `INDEX` one above the local index, in 1..256, not reduced modulo 256. -/
def Obligations.IncAdvancesTheIndexByOne : Prop :=
  ∀ (s : State) (i : Nat), s.tickRequest = true →
    (s.index.toNat < 256 ∧ i = s.index.toNat ∨ s.config.wrapMode = .cont ∧ 256 ≤ s.index.toNat ∧ i = 0) →
    ∃ x : TableIndex, exec .tInc s = .next { s with index := x } ∧ x.toNat = i + 1 ∧ 1 ≤ x.toNat ∧ x.toNat ≤ 256

/-! ## Whole-machine rules -/

/-- R158: in a cycle without reset the three duty registers change only in a tick that reaches step 4, and then all three
are written together, from one index and one period. -/
def Obligations.DutyRegistersChangeTogether : Prop :=
  ∀ s t : State, s.currentWord.getLsbD 19 = false → step s = .next t →
    if decodeCW s.controlWord = .tick ∧ (s.index.toNat < 256 ∨ s.config.wrapMode = .cont) then
      ∃ i p, i < 256 ∧ (s.index.toNat < 256 → i = s.index.toNat) ∧ (256 ≤ s.index.toNat → i = 0) ∧ p = t.period ∧
        t.duty0 = dscale s.config (s.romRead i) p ∧ t.duty1 = dscale s.config (s.romRead (i + 85)) p ∧
        t.duty2 = dscale s.config (s.romRead (i + 170)) p
    else t.duty0 = s.duty0 ∧ t.duty1 = s.duty1 ∧ t.duty2 = s.duty2

/-- R155: the transitions of `RUN`: IDLE to RUNNING exactly by `START`, RUNNING to IDLE exactly by a tick that reads frequency
0, any state to IDLE by `RESET`. -/
def Obligations.RunChangesOnlyByStartHaltAndReset : Prop :=
  ∀ s t : State, step s = .next t →
    (s.currentWord.getLsbD 19 = true → t.run = false) ∧
    (s.currentWord.getLsbD 19 = false → s.run = false → (t.run = true ↔ decodeCW s.controlWord = .start)) ∧
    (s.currentWord.getLsbD 19 = false → s.run = true →
      (t.run = false ↔ decodeCW s.controlWord = .tick ∧ s.freq = 0x0000#16))

/-- R22, R135: `PERIOD` is written only with a `PCONV` result, by `START` or by a tick that reads a non-zero frequency; no
host command reaches it. -/
def Obligations.PeriodIsWrittenOnlyByStartAndTick : Prop :=
  ∀ s t : State, s.currentWord.getLsbD 19 = false → step s = .next t →
    (∀ h : s.freq ≠ 0x0000#16, decodeCW s.controlWord = .start ∨ decodeCW s.controlWord = .tick →
      t.period = pconv s.config s.freq h) ∧
    (decodeCW s.controlWord ≠ .start → decodeCW s.controlWord ≠ .tick ∨ s.freq = 0x0000#16 → t.period = s.period)

/-- R33 (b): the index comes to hold 256 only by the tick that outputs entry 255, in both wrap modes. -/
def Obligations.IndexReaches256OnlyAfterEntry255 : Prop :=
  ∀ s t : State, s.currentWord.getLsbD 19 = false → step s = .next t → t.index = 256#9 →
    (decodeCW s.controlWord = .tick ∧ s.index = 255#9) ∨ (decodeCW s.controlWord ≠ .tick ∧ s.index = 256#9)

/-- R159: the index over successive ticks, `u n` being the state in which tick `n` executes: from 0 it runs through 0..256 and
back to 0 in `DEAD` mode (257 ticks a cycle), through 0..255, 256 and then 1 in `CONT` mode (256 ticks a cycle). -/
def Obligations.SuccessiveTicksWalkTheTable : Prop :=
  ∀ u : Nat → State, (u 0).index = 0#9 →
    (∀ n, (u n).tickRequest = true ∧ ∃ t, exec .tick (u n) = .next t ∧
      (u (n + 1)).index = t.index ∧ (u (n + 1)).config = t.config) →
    ((u 0).config.wrapMode = .dead → ∀ n, (u n).index.toNat = n % 257) ∧
    ((u 0).config.wrapMode = .cont → ∀ n, (u (n + 1)).index.toNat = n % 256 + 1)

/-- R36, R95: the outputs are copies of registers, and `tick_o` is 1 exactly in a cycle with `rst = 0` that executes `TICK`. -/
def Obligations.OutputsCopyTheRegisters : Prop :=
  ∀ s : State, s.outputs.duty0_o = s.duty0 ∧ s.outputs.duty1_o = s.duty1 ∧ s.outputs.duty2_o = s.duty2 ∧
    s.outputs.period_o = s.period ∧ s.outputs.run_o = s.run ∧
    (s.outputs.tick_o = true ↔ s.currentWord.getLsbD 19 = false ∧ decodeCW s.controlWord = .tick)

/-- R104, R133, R194: while the timer runs, a published frequency changes nothing before the next tick: two states that differ
in `FREQ` alone select the same operation, and where it is no `TICK` it does the same to every other register. -/
def Obligations.FrequencyIsNotReadBetweenTicks : Prop :=
  ∀ (s t : State) (f : Frequency), s.run = true → decodeCW s.controlWord ≠ .tick →
    exec (decodeCW s.controlWord) s = .next t →
    decodeCW (State.controlWord { s with freq := f }) = decodeCW s.controlWord ∧
    exec (decodeCW s.controlWord) { s with freq := f } = .next { t with freq := f }

/-- R159, R196: a frequency change never alters the lookup sequence: whatever frequency a tick reads, it leaves the same index,
and without duty scaling the same three duty values. -/
def Obligations.FrequencyNeverAltersTheLookups : Prop :=
  ∀ (s t u : State) (f : Frequency), exec .tick s = .next t → exec .tick { s with freq := f } = .next u →
    u.index = t.index ∧
    (s.config.dutyScale = false → u.duty0 = t.duty0 ∧ u.duty1 = t.duty1 ∧ u.duty2 = t.duty2)

/-! ## Invariants -/

/-- R33: the state after reset satisfies the five invariants. -/
def Obligations.ResetStateMeetsTheInvariants : Prop := State.reset.Inv

/-- R33: every step keeps the invariants (a) to (e), from every state that has them, whatever the HOST presents. -/
def Obligations.StepKeepsTheInvariants : Prop :=
  ∀ s t : State, s.Inv → step s = .next t → t.Inv

/-- R33, R96: in a run whose first stimulus word is `RESET`, from any register contents, every state after that cycle satisfies
(a) to (e), and from each of them the index comes to hold 256 only by the tick that outputs entry 255. -/
def Obligations.WellStartedRunsMeetTheInvariants : Prop :=
  ∀ s : State, s.WellStarted → ∀ n t, Host.Core.run Sys2Proof.core (n + 1) s = .next t →
    State.Inv t ∧ ∀ u, step t = .next u → u.index = 256#9 →
      (decodeCW (State.controlWord t) = .tick ∧ State.index t = 255#9) ∨
      (decodeCW (State.controlWord t) ≠ .tick ∧ State.index t = 256#9)

/-- R20, R90: the step maps states within the register widths to states within the register widths, reset or not. -/
def Obligations.StepKeepsTheRegisterWidths : Prop :=
  ∀ s t : State, s.InWidth → step s = .next t → t.InWidth

/-! ## The converters -/

/-- R113: the properties (a) to (e) of `FSCALE` and its listed values; (f), that it is the same for every parameter setting, is
its type. -/
def Obligations.FscaleIsExactAtTheEndsAndIncreasing : Prop :=
  fscale 0#10 = 0x0000#16 ∧ fscale 1023#10 = 0x7800#16 ∧
  (∀ v : Sample, (fscale v).toNat ≤ 30720) ∧
  (∀ v w : Sample, v.toNat + 1 = w.toNat →
    (fscale w).toNat = (fscale v).toNat + 30 ∨ (fscale w).toNat = (fscale v).toNat + 31) ∧
  (∀ v w : Sample, v.toNat < w.toNat → (fscale v).toNat < (fscale w).toNat) ∧
  (∀ v : Sample, fscale v = 0x0000#16 → v = 0#10) ∧
  (∀ v : Sample, (fscale v).toNat * 1023 ≤ v.toNat * 120 * 256 ∧ v.toNat * 120 * 256 < ((fscale v).toNat + 1) * 1023) ∧
  fscale 1#10 = 30#16 ∧ fscale 2#10 = 60#16 ∧ fscale 8#10 = 240#16 ∧ fscale 9#10 = 270#16 ∧ fscale 511#10 = 15344#16 ∧
  fscale 512#10 = 15375#16 ∧ fscale 1022#10 = 30689#16

/-- R114: the definition of `PCONV`, and the narrower form an implementation should build, equal for all parameter values. -/
def Obligations.PconvHasItsTwoForms : Prop :=
  ∀ (c : Config) (f : Frequency) (h : f ≠ 0x0000#16), c.wellFormed = true →
    pconv c f h = max 1 (min (2 ^ c.pw - 1)
      ((2 * (c.fClk * 256) + c.prescale * 256 * f.toNat) / (2 * (c.prescale * 256 * f.toNat)))) ∧
    pconv c f h = max 1 (min (2 ^ c.pw - 1) ((2 * c.fClk + c.prescale * f.toNat) / (2 * (c.prescale * f.toNat))))

/-- R118 (a), (b): `PCONV` is in 1..`PMAX` and non-increasing in the frequency. -/
def Obligations.PconvIsInRangeAndNonIncreasing : Prop :=
  ∀ c : Config, c.wellFormed = true →
    (∀ (f : Frequency) (h : f ≠ 0x0000#16), 1 ≤ pconv c f h ∧ pconv c f h ≤ 2 ^ c.pw - 1) ∧
    (∀ (f g : Frequency) (hf : f ≠ 0x0000#16) (hg : g ≠ 0x0000#16), f.toNat ≤ g.toNat → pconv c g hg ≤ pconv c f hf)

/-- R115, R118 (d): values of `PCONV` in the reference configuration, the exact halves and the source's example among them. -/
def Obligations.PconvReferenceValues : Prop :=
  pconv .reference 1#16 (by decide) = 255 ∧ pconv .reference 245#16 (by decide) = 255 ∧
  pconv .reference 246#16 (by decide) = 254 ∧ pconv .reference 1000#16 (by decide) = 63 ∧
  pconv .reference 5000#16 (by decide) = 13 ∧ pconv .reference 17857#16 (by decide) = 4 ∧
  pconv .reference 17858#16 (by decide) = 3 ∧ pconv .reference 25000#16 (by decide) = 3 ∧
  pconv .reference 25001#16 (by decide) = 2 ∧ pconv .reference 0x7800#16 (by decide) = 2 ∧
  pconv .reference 41666#16 (by decide) = 2 ∧ pconv .reference 41667#16 (by decide) = 1 ∧
  pconv .reference 0xFFFF#16 (by decide) = 1

/-- R119, R120: `DSCALE` is the sample itself without scaling; with scaling it is `raw * p / 256` rounded once, half up, and
clamped to 255; it is 0 for the sample 0, at most 254 for a period of at most 255, and non-decreasing in both. -/
def Obligations.DscaleRoundsOnceAndIsMonotone : Prop :=
  ∀ c : Config,
    (c.dutyScale = false → ∀ raw p, dscale c raw p = raw) ∧
    (c.dutyScale = true →
      (∀ raw p, (dscale c raw p).toNat = min 255 ((raw.toNat * p + 128) / 256)) ∧
      (∀ p, dscale c 0#8 p = 0#8) ∧
      (∀ raw p, p ≤ 255 → (dscale c raw p).toNat ≤ 254) ∧
      (∀ raw raw' p p', raw.toNat ≤ raw'.toNat → p ≤ p' → (dscale c raw p).toNat ≤ (dscale c raw' p').toNat))

/-! ## The sine ROM -/

/-- R51: a read at any natural number is the read at its residue modulo 256, so it is periodic with period 256. -/
def Obligations.RomReadIsPeriodic : Prop :=
  ∀ (s : State) (a : Nat), s.romRead a = s.romRead (a % 256) ∧ s.romRead (a + 256) = s.romRead a

/-- R9: every function from 0..255 to bytes is a possible `SINE_ROM`: the memory built from it is in canonical form and
reads as it (log 9). -/
def Obligations.RomHoldsAnyTable : Prop :=
  ∀ f : Nat → Byte, Memory.wf (Rom.ofTable f) = true ∧ ∀ a, Rom.read (Rom.ofTable f) a = f (a % 256)

/-- R52: the listed properties of the default table: its corner entries, its half-wave symmetry, its sum. -/
def Obligations.DefaultRomHasTheListedProperties : Prop :=
  Rom.defaultTable.length = 256 ∧ Rom.defaultByte 0 = 128#8 ∧ Rom.defaultByte 64 = 255#8 ∧ Rom.defaultByte 128 = 128#8 ∧
  Rom.defaultByte 192 = 1#8 ∧ (∀ i < 256, (Rom.defaultByte i).toNat + (Rom.defaultByte (i + 128)).toNat = 256) ∧
  Rom.defaultTable.sum = 32768 ∧
  (∀ i < 256, 1 ≤ (Rom.defaultByte i).toNat) ∧
  (∀ i < 256, (Rom.defaultByte i = 1#8 ↔ 189 ≤ i ∧ i ≤ 195) ∧ (Rom.defaultByte i = 255#8 ↔ 61 ≤ i ∧ i ≤ 67))

/-- R160: with the default table the three samples of a tick are pairwise different, but for `i = 107` and `i = 235`, where
channels 0 and 2 coincide. -/
def Obligations.DefaultRomChannelsCoincideTwice : Prop :=
  ∀ i < 256, Rom.defaultByte i ≠ Rom.defaultByte (i + 85) ∧ Rom.defaultByte (i + 85) ≠ Rom.defaultByte (i + 170) ∧
    (Rom.defaultByte i = Rom.defaultByte (i + 170) ↔ i = 107 ∨ i = 235)

/-! ## Encodings and scripts -/

/-- R72, R73, R74: the decode of a stimulus word, row by row: the patterns, and the operand of each. -/
def Obligations.StimulusDecodeFollowsTheTable : Prop :=
  ∀ w : StimulusWord,
    (decodeSW w = .reset ↔ w &&& 0x80000#20 = 0x80000#20) ∧
    (decodeSW w = .nop ↔ w &&& 0xC0000#20 = 0x00000#20) ∧
    (∀ d, decodeSW w = .wrfreq d ↔ w &&& 0xF0000#20 = 0x40000#20 ∧ d.toNat = w.toNat % 65536) ∧
    (∀ v, decodeSW w = .wrsamp v ↔ w &&& 0xF0000#20 = 0x50000#20 ∧ v.toNat = w.toNat % 1024) ∧
    (∀ x, decodeSW w = .wrrsv2 x ↔ w &&& 0xF0000#20 = 0x60000#20 ∧ x.toNat = w.toNat % 65536) ∧
    (∀ x, decodeSW w = .wrrsv3 x ↔ w &&& 0xF0000#20 = 0x70000#20 ∧ x.toNat = w.toNat % 65536)

/-- R76: the decode of a control word, row by row. -/
def Obligations.ControlDecodeFollowsTheTable : Prop :=
  ∀ cw : ControlWord,
    (decodeCW cw = .hold ↔ cw &&& 0b11000#5 = 0b00000#5) ∧
    (decodeCW cw = .start ↔ cw &&& 0b11000#5 = 0b01000#5) ∧
    (decodeCW cw = .pscinc ↔ cw &&& 0b10100#5 = 0b10000#5) ∧
    (decodeCW cw = .cntdec ↔ cw &&& 0b10110#5 = 0b10100#5) ∧
    (decodeCW cw = .tick ↔ cw &&& 0b10110#5 = 0b10110#5)

/-- R77: the sub-operations of a tick by their patterns, in both wrap modes. -/
def Obligations.TickScheduleFollowsTheTable : Prop :=
  ∀ (m : WrapMode) (cw : ControlWord),
    (.tLatch ∈ tickSchedule m cw ↔ cw &&& 0b10110#5 = 0b10110#5) ∧
    (.tPload ∈ tickSchedule m cw ↔ cw &&& 0b11110#5 = 0b11110#5) ∧
    (.tHalt ∈ tickSchedule m cw ↔ cw &&& 0b11110#5 = 0b10110#5) ∧
    (.tWrap ∈ tickSchedule m cw ↔ cw &&& 0b10111#5 = 0b10111#5) ∧
    (∀ i ∈ [Instr.tOut0, .tOut1, .tOut2, .tInc], i ∈ tickSchedule m cw ↔
      cw &&& 0b10111#5 = 0b10110#5 ∨ m = .cont ∧ cw &&& 0b10110#5 = 0b10110#5)

/-- R72, R76, R77: decode and encode agree, for every operation with every operand: an operation that is no sub-operation is
read back from its word; a sub-operation's word reads as `TICK` and selects it in the reference wrap mode. -/
def Obligations.DecodeReadsBackWhatEncodeWrites : Prop :=
  ∀ i : Instr,
    (i.isSubOperation = false → decodeEncoded (encode i) = i) ∧
    (i.isSubOperation = true → ∃ cw, encode i = .cw cw ∧ decodeCW cw = .tick ∧ i ∈ tickSchedule .dead cw)

/-- Words written out from the patterns of R72 and R76 decode to the operations they stand for. -/
def Obligations.WordsWrittenOutDecode : Prop :=
  decodeTableWord 24 0b11111111111111111111 = some .reset ∧
  decodeTableWord 24 0b00111111111111111111 = some .nop ∧
  decodeTableWord 24 0b01000111100000000000 = some (.wrfreq 0x7800#16) ∧
  decodeTableWord 24 0b01011111111111111111 = some (.wrsamp 1023#10) ∧
  decodeTableWord 24 0b01101010101111001101 = some (.wrrsv2 0xABCD#16) ∧
  decodeTableWord 24 0b01110000000000000000 = some (.wrrsv3 0#16) ∧
  decodeTableWord 8 0b00111 = some .hold ∧ decodeTableWord 8 0b01000 = some .start ∧
  decodeTableWord 8 0b11011 = some .pscinc ∧ decodeTableWord 8 0b10101 = some .cntdec ∧
  decodeTableWord 8 0b10110 = some .tick

/-- Log 10, the model's `withFetchWord`: a control word placed for the next cycle is the control word of the state it makes,
and the step is then that of the operation it decodes to, with nothing added by the HOST. With `PW = 1` a word with `cexp = 0`
is placed with `CNT = 2`, beyond the register's one bit (log 10). -/
def Obligations.PlacedControlWordIsExecuted : Prop :=
  ∀ (s e : State) (cw : ControlWord), 1 ≤ s.config.prescale → (s.config.prescale ≠ 1 ∨ cw.getLsbD 2 = true) →
    (s.withFetchWord 8 cw.toNat).controlWord = cw ∧
    (exec (decodeCW cw) (s.withFetchWord 8 cw.toNat) = .next e →
      step (s.withFetchWord 8 cw.toNat) = .next { e with stimulus := e.stimulus.tail, freeCount := e.freeCount + 1 })

/-- R82, R83: the words of each statement, and the assembly error of an operand out of its range. That `RSTN 0` is such an
error is the model's choice (log 12). -/
def Obligations.StatementsAssembleToTheirWords : Prop :=
  Script.assemble .rst = some [0x80000#20] ∧ Script.assemble .nop = some [0x00000#20] ∧
  Script.assemble .stop = some [0x40000#20] ∧
  (∀ n, Script.assemble (.wrfreq n) = if n ≤ 0xFFFF then some [BitVec.ofNat 20 (0x40000 + n)] else none) ∧
  (∀ n, Script.assemble (.wrsamp n) = if n ≤ 1023 then some [BitVec.ofNat 20 (0x50000 + n)] else none) ∧
  (∀ n, Script.assemble (.wrrsv2 n) = if n ≤ 0xFFFF then some [BitVec.ofNat 20 (0x60000 + n)] else none) ∧
  (∀ n, Script.assemble (.wrrsv3 n) = if n ≤ 0xFFFF then some [BitVec.ofNat 20 (0x70000 + n)] else none) ∧
  (∀ n, Script.assemble (.pubhz n) = if n ≤ 255 then some [BitVec.ofNat 20 (0x40000 + n * 256)] else none) ∧
  (∀ n, Script.assemble (.clk n) = some (List.replicate n 0x00000#20)) ∧
  (∀ n, Script.assemble (.rstn n) = if 1 ≤ n then some (List.replicate n 0x80000#20) else none)

/-- R80, R82: the disassembly of any word assembles to one word, and that word has the same effect in every state: bits the
decode ignores make no difference. -/
def Obligations.DisassemblyKeepsTheEffectOfAWord : Prop :=
  ∀ w : StimulusWord, ∃ w', Script.assemble (Script.disassemble w) = some [w'] ∧
    ∀ s : State, step (s.withStimulusWord w') = step (s.withStimulusWord w)
end

