-- ==== Sys2Proof/Laws/State.lean ====
section
/-! SUPPORT. Laws/State.lean: one lemma per field per named operation of Machine/Ops.lean, so that no proof unfolds a record
update. -/

namespace Sys2Proof.Machine.State

variable (s : State)

@[simp] theorem publish_config (v : Frequency) : (s.publish v).config = s.config := rfl
@[simp] theorem publish_freq (v : Frequency) : (s.publish v).freq = v := rfl
@[simp] theorem publish_period (v : Frequency) : (s.publish v).period = s.period := rfl
@[simp] theorem publish_index (v : Frequency) : (s.publish v).index = s.index := rfl
@[simp] theorem publish_duty0 (v : Frequency) : (s.publish v).duty0 = s.duty0 := rfl
@[simp] theorem publish_duty1 (v : Frequency) : (s.publish v).duty1 = s.duty1 := rfl
@[simp] theorem publish_duty2 (v : Frequency) : (s.publish v).duty2 = s.duty2 := rfl
@[simp] theorem publish_run (v : Frequency) : (s.publish v).run = s.run := rfl
@[simp] theorem publish_psc (v : Frequency) : (s.publish v).psc = s.psc := rfl
@[simp] theorem publish_cnt (v : Frequency) : (s.publish v).cnt = s.cnt := rfl
@[simp] theorem publish_stimulus (v : Frequency) : (s.publish v).stimulus = s.stimulus := rfl
@[simp] theorem publish_freeCount (v : Frequency) : (s.publish v).freeCount = s.freeCount := rfl

@[simp] theorem loadTimer_config (p : Nat) : (s.loadTimer p).config = s.config := rfl
@[simp] theorem loadTimer_freq (p : Nat) : (s.loadTimer p).freq = s.freq := rfl
@[simp] theorem loadTimer_period (p : Nat) : (s.loadTimer p).period = p := rfl
@[simp] theorem loadTimer_index (p : Nat) : (s.loadTimer p).index = s.index := rfl
@[simp] theorem loadTimer_duty0 (p : Nat) : (s.loadTimer p).duty0 = s.duty0 := rfl
@[simp] theorem loadTimer_duty1 (p : Nat) : (s.loadTimer p).duty1 = s.duty1 := rfl
@[simp] theorem loadTimer_duty2 (p : Nat) : (s.loadTimer p).duty2 = s.duty2 := rfl
@[simp] theorem loadTimer_run (p : Nat) : (s.loadTimer p).run = s.run := rfl
@[simp] theorem loadTimer_psc (p : Nat) : (s.loadTimer p).psc = 0 := rfl
@[simp] theorem loadTimer_cnt (p : Nat) : (s.loadTimer p).cnt = p := rfl
@[simp] theorem loadTimer_stimulus (p : Nat) : (s.loadTimer p).stimulus = s.stimulus := rfl
@[simp] theorem loadTimer_freeCount (p : Nat) : (s.loadTimer p).freeCount = s.freeCount := rfl

@[simp] theorem haltTimer_config : (s.haltTimer).config = s.config := rfl
@[simp] theorem haltTimer_freq : (s.haltTimer).freq = s.freq := rfl
@[simp] theorem haltTimer_period : (s.haltTimer).period = s.period := rfl
@[simp] theorem haltTimer_index : (s.haltTimer).index = s.index := rfl
@[simp] theorem haltTimer_duty0 : (s.haltTimer).duty0 = s.duty0 := rfl
@[simp] theorem haltTimer_duty1 : (s.haltTimer).duty1 = s.duty1 := rfl
@[simp] theorem haltTimer_duty2 : (s.haltTimer).duty2 = s.duty2 := rfl
@[simp] theorem haltTimer_run : (s.haltTimer).run = false := rfl
@[simp] theorem haltTimer_psc : (s.haltTimer).psc = 0 := rfl
@[simp] theorem haltTimer_cnt : (s.haltTimer).cnt = 0 := rfl
@[simp] theorem haltTimer_stimulus : (s.haltTimer).stimulus = s.stimulus := rfl
@[simp] theorem haltTimer_freeCount : (s.haltTimer).freeCount = s.freeCount := rfl

@[simp] theorem setRunning_config : (s.setRunning).config = s.config := rfl
@[simp] theorem setRunning_freq : (s.setRunning).freq = s.freq := rfl
@[simp] theorem setRunning_period : (s.setRunning).period = s.period := rfl
@[simp] theorem setRunning_index : (s.setRunning).index = s.index := rfl
@[simp] theorem setRunning_duty0 : (s.setRunning).duty0 = s.duty0 := rfl
@[simp] theorem setRunning_duty1 : (s.setRunning).duty1 = s.duty1 := rfl
@[simp] theorem setRunning_duty2 : (s.setRunning).duty2 = s.duty2 := rfl
@[simp] theorem setRunning_run : (s.setRunning).run = true := rfl
@[simp] theorem setRunning_psc : (s.setRunning).psc = s.psc := rfl
@[simp] theorem setRunning_cnt : (s.setRunning).cnt = s.cnt := rfl
@[simp] theorem setRunning_stimulus : (s.setRunning).stimulus = s.stimulus := rfl
@[simp] theorem setRunning_freeCount : (s.setRunning).freeCount = s.freeCount := rfl

@[simp] theorem setPsc_config (n : Nat) : (s.setPsc n).config = s.config := rfl
@[simp] theorem setPsc_freq (n : Nat) : (s.setPsc n).freq = s.freq := rfl
@[simp] theorem setPsc_period (n : Nat) : (s.setPsc n).period = s.period := rfl
@[simp] theorem setPsc_index (n : Nat) : (s.setPsc n).index = s.index := rfl
@[simp] theorem setPsc_duty0 (n : Nat) : (s.setPsc n).duty0 = s.duty0 := rfl
@[simp] theorem setPsc_duty1 (n : Nat) : (s.setPsc n).duty1 = s.duty1 := rfl
@[simp] theorem setPsc_duty2 (n : Nat) : (s.setPsc n).duty2 = s.duty2 := rfl
@[simp] theorem setPsc_run (n : Nat) : (s.setPsc n).run = s.run := rfl
@[simp] theorem setPsc_psc (n : Nat) : (s.setPsc n).psc = n := rfl
@[simp] theorem setPsc_cnt (n : Nat) : (s.setPsc n).cnt = s.cnt := rfl
@[simp] theorem setPsc_stimulus (n : Nat) : (s.setPsc n).stimulus = s.stimulus := rfl
@[simp] theorem setPsc_freeCount (n : Nat) : (s.setPsc n).freeCount = s.freeCount := rfl

@[simp] theorem setCnt_config (n : Nat) : (s.setCnt n).config = s.config := rfl
@[simp] theorem setCnt_freq (n : Nat) : (s.setCnt n).freq = s.freq := rfl
@[simp] theorem setCnt_period (n : Nat) : (s.setCnt n).period = s.period := rfl
@[simp] theorem setCnt_index (n : Nat) : (s.setCnt n).index = s.index := rfl
@[simp] theorem setCnt_duty0 (n : Nat) : (s.setCnt n).duty0 = s.duty0 := rfl
@[simp] theorem setCnt_duty1 (n : Nat) : (s.setCnt n).duty1 = s.duty1 := rfl
@[simp] theorem setCnt_duty2 (n : Nat) : (s.setCnt n).duty2 = s.duty2 := rfl
@[simp] theorem setCnt_run (n : Nat) : (s.setCnt n).run = s.run := rfl
@[simp] theorem setCnt_psc (n : Nat) : (s.setCnt n).psc = 0 := rfl
@[simp] theorem setCnt_cnt (n : Nat) : (s.setCnt n).cnt = n := rfl
@[simp] theorem setCnt_stimulus (n : Nat) : (s.setCnt n).stimulus = s.stimulus := rfl
@[simp] theorem setCnt_freeCount (n : Nat) : (s.setCnt n).freeCount = s.freeCount := rfl

@[simp] theorem setIndex_config (i : Nat) : (s.setIndex i).config = s.config := rfl
@[simp] theorem setIndex_freq (i : Nat) : (s.setIndex i).freq = s.freq := rfl
@[simp] theorem setIndex_period (i : Nat) : (s.setIndex i).period = s.period := rfl
@[simp] theorem setIndex_index (i : Nat) : (s.setIndex i).index = BitVec.ofNat 9 i := rfl
@[simp] theorem setIndex_duty0 (i : Nat) : (s.setIndex i).duty0 = s.duty0 := rfl
@[simp] theorem setIndex_duty1 (i : Nat) : (s.setIndex i).duty1 = s.duty1 := rfl
@[simp] theorem setIndex_duty2 (i : Nat) : (s.setIndex i).duty2 = s.duty2 := rfl
@[simp] theorem setIndex_run (i : Nat) : (s.setIndex i).run = s.run := rfl
@[simp] theorem setIndex_psc (i : Nat) : (s.setIndex i).psc = s.psc := rfl
@[simp] theorem setIndex_cnt (i : Nat) : (s.setIndex i).cnt = s.cnt := rfl
@[simp] theorem setIndex_stimulus (i : Nat) : (s.setIndex i).stimulus = s.stimulus := rfl
@[simp] theorem setIndex_freeCount (i : Nat) : (s.setIndex i).freeCount = s.freeCount := rfl

@[simp] theorem nextCycle_config : (s.nextCycle).config = s.config := rfl
@[simp] theorem nextCycle_freq : (s.nextCycle).freq = s.freq := rfl
@[simp] theorem nextCycle_period : (s.nextCycle).period = s.period := rfl
@[simp] theorem nextCycle_index : (s.nextCycle).index = s.index := rfl
@[simp] theorem nextCycle_duty0 : (s.nextCycle).duty0 = s.duty0 := rfl
@[simp] theorem nextCycle_duty1 : (s.nextCycle).duty1 = s.duty1 := rfl
@[simp] theorem nextCycle_duty2 : (s.nextCycle).duty2 = s.duty2 := rfl
@[simp] theorem nextCycle_run : (s.nextCycle).run = s.run := rfl
@[simp] theorem nextCycle_psc : (s.nextCycle).psc = s.psc := rfl
@[simp] theorem nextCycle_cnt : (s.nextCycle).cnt = s.cnt := rfl
@[simp] theorem nextCycle_stimulus : (s.nextCycle).stimulus = s.stimulus.tail := rfl
@[simp] theorem nextCycle_freeCount : (s.nextCycle).freeCount = s.freeCount + 1 := rfl

@[simp] theorem toReset_config : (s.toReset).config = s.config := rfl
@[simp] theorem toReset_freq : (s.toReset).freq = 0x0000#16 := rfl
@[simp] theorem toReset_period : (s.toReset).period = s.config.pmax := rfl
@[simp] theorem toReset_index : (s.toReset).index = 0#9 := rfl
@[simp] theorem toReset_duty0 : (s.toReset).duty0 = 0x80#8 := rfl
@[simp] theorem toReset_duty1 : (s.toReset).duty1 = 0x80#8 := rfl
@[simp] theorem toReset_duty2 : (s.toReset).duty2 = 0x80#8 := rfl
@[simp] theorem toReset_run : (s.toReset).run = false := rfl
@[simp] theorem toReset_psc : (s.toReset).psc = 0 := rfl
@[simp] theorem toReset_cnt : (s.toReset).cnt = 0 := rfl
@[simp] theorem toReset_stimulus : (s.toReset).stimulus = s.stimulus := rfl
@[simp] theorem toReset_freeCount : (s.toReset).freeCount = s.freeCount := rfl

@[simp] theorem merge_config (h : State) : (s.merge h).config = s.config := rfl
@[simp] theorem merge_freq (h : State) : (s.merge h).freq = h.freq := rfl
@[simp] theorem merge_period (h : State) : (s.merge h).period = s.period := rfl
@[simp] theorem merge_index (h : State) : (s.merge h).index = s.index := rfl
@[simp] theorem merge_duty0 (h : State) : (s.merge h).duty0 = s.duty0 := rfl
@[simp] theorem merge_duty1 (h : State) : (s.merge h).duty1 = s.duty1 := rfl
@[simp] theorem merge_duty2 (h : State) : (s.merge h).duty2 = s.duty2 := rfl
@[simp] theorem merge_run (h : State) : (s.merge h).run = s.run := rfl
@[simp] theorem merge_psc (h : State) : (s.merge h).psc = s.psc := rfl
@[simp] theorem merge_cnt (h : State) : (s.merge h).cnt = s.cnt := rfl
@[simp] theorem merge_stimulus (h : State) : (s.merge h).stimulus = s.stimulus := rfl
@[simp] theorem merge_freeCount (h : State) : (s.merge h).freeCount = s.freeCount := rfl

@[simp] theorem setDuty_config (k : Channel) (v : Byte) : (s.setDuty k v).config = s.config := by cases k <;> rfl
@[simp] theorem setDuty_freq (k : Channel) (v : Byte) : (s.setDuty k v).freq = s.freq := by cases k <;> rfl
@[simp] theorem setDuty_period (k : Channel) (v : Byte) : (s.setDuty k v).period = s.period := by cases k <;> rfl
@[simp] theorem setDuty_index (k : Channel) (v : Byte) : (s.setDuty k v).index = s.index := by cases k <;> rfl
@[simp] theorem setDuty_ch0_duty0 (v : Byte) : (s.setDuty .ch0 v).duty0 = v := rfl
@[simp] theorem setDuty_ch1_duty0 (v : Byte) : (s.setDuty .ch1 v).duty0 = s.duty0 := rfl
@[simp] theorem setDuty_ch2_duty0 (v : Byte) : (s.setDuty .ch2 v).duty0 = s.duty0 := rfl
@[simp] theorem setDuty_ch0_duty1 (v : Byte) : (s.setDuty .ch0 v).duty1 = s.duty1 := rfl
@[simp] theorem setDuty_ch1_duty1 (v : Byte) : (s.setDuty .ch1 v).duty1 = v := rfl
@[simp] theorem setDuty_ch2_duty1 (v : Byte) : (s.setDuty .ch2 v).duty1 = s.duty1 := rfl
@[simp] theorem setDuty_ch0_duty2 (v : Byte) : (s.setDuty .ch0 v).duty2 = s.duty2 := rfl
@[simp] theorem setDuty_ch1_duty2 (v : Byte) : (s.setDuty .ch1 v).duty2 = s.duty2 := rfl
@[simp] theorem setDuty_ch2_duty2 (v : Byte) : (s.setDuty .ch2 v).duty2 = v := rfl
@[simp] theorem setDuty_run (k : Channel) (v : Byte) : (s.setDuty k v).run = s.run := by cases k <;> rfl
@[simp] theorem setDuty_psc (k : Channel) (v : Byte) : (s.setDuty k v).psc = s.psc := by cases k <;> rfl
@[simp] theorem setDuty_cnt (k : Channel) (v : Byte) : (s.setDuty k v).cnt = s.cnt := by cases k <;> rfl
@[simp] theorem setDuty_stimulus (k : Channel) (v : Byte) : (s.setDuty k v).stimulus = s.stimulus := by cases k <;> rfl
@[simp] theorem setDuty_freeCount (k : Channel) (v : Byte) : (s.setDuty k v).freeCount = s.freeCount := by cases k <;> rfl

/-- A duty register reads what was last written to it, and a write to one leaves the other two alone (R158). -/
theorem setDuty_duty (k k' : Channel) (v : Byte) :
    (s.setDuty k v).duty k' = if k' = k then v else s.duty k' := by
  cases k <;> cases k' <;> rfl

end Sys2Proof.Machine.State
end

