-- ==== Sys2Proof/Laws/Ops.lean ====
section
/-! SUPPORT. Laws/Ops.lean: what each shared operation can do, said once. -/

namespace Sys2Proof.Machine

/-- Both parts of a cycle answer a next state exactly when the cycle does, and it is their merge (R92). -/
theorem combine_eq_next {e h : Host.Outcome State Fault Refusal} {t : State} :
    combine e h = .next t ↔ ∃ a b, e = .next a ∧ h = .next b ∧ t = a.merge b := by
  cases e <;> cases h <;> simp [combine, eq_comm]

/-- A finished cycle is the executed one with the input side moved on. -/
theorem finish_eq_next {o : Host.Outcome State Fault Refusal} {t : State} :
    finish o = .next t ↔ ∃ a, o = .next a ∧ t = a.nextCycle := by
  cases o <;> simp [finish, eq_comm]

@[simp] theorem finish_next (a : State) : finish (.next a) = .next a.nextCycle := rfl

@[simp] theorem combine_next (a b : State) : combine (.next a) (.next b) = .next (a.merge b) := rfl

@[simp] theorem currentWord_cons (s : State) (w : StimulusWord) (ws : List StimulusWord)
    (h : s.stimulus = w :: ws) : s.currentWord = w := by
  simp [State.currentWord, h]

/-- `clamp` stays within bounds that are in order (R12). -/
theorem clamp_bounds {v lo hi : Nat} (h : lo ≤ hi) : lo ≤ clamp v lo hi ∧ clamp v lo hi ≤ hi := by
  unfold clamp; omega

/-- `clamp` is monotone. -/
theorem clamp_mono {v w lo hi : Nat} (h : v ≤ w) : clamp v lo hi ≤ clamp w lo hi := by
  unfold clamp; omega

/-- `FSCALE` never exceeds 16 bits, so its word is its number (R110, R112). -/
theorem fscale_toNat (v : Sample) : (fscale v).toNat = v.toNat * 30720 / 1023 := by
  have hv := v.isLt
  have h : v.toNat * 30720 / 1023 ≤ 1023 * 30720 / 1023 := Nat.div_le_div_right (by omega)
  simp only [fscale, BitVec.toNat_ofNat]
  exact Nat.mod_eq_of_lt (by omega)

/-- `PSC` always counts to a value of its own width (log 4). -/
theorem pscNext_lt (s : State) : s.pscNext < 2 ^ s.config.pscWidth := by
  unfold State.pscNext
  split
  · assumption
  · exact Nat.mod_lt _ (Nat.two_pow_pos _)

/-- `PRESCALE` values fit the width `ceil(log2 PRESCALE)` (R20). -/
theorem prescale_le_two_pow_pscWidth (c : Config) : c.prescale ≤ 2 ^ c.pscWidth := by
  unfold Config.pscWidth
  split
  · simpa
  · have : c.prescale - 1 < 2 ^ (Nat.log2 (c.prescale - 1) + 1) := Nat.lt_log2_self
    omega

/-! The conditions, as facts about the registers (R75). -/

@[simp] theorem fnz_iff (s : State) : s.fnz = true ↔ s.freq ≠ 0x0000#16 := by simp [State.fnz]
@[simp] theorem fnz_eq_false_iff (s : State) : s.fnz = false ↔ s.freq = 0x0000#16 := by simp [State.fnz]
@[simp] theorem pwrap_iff (s : State) : s.pwrap = true ↔ s.psc + 1 = s.config.prescale := by simp [State.pwrap]
@[simp] theorem pwrap_eq_false_iff (s : State) : s.pwrap = false ↔ s.psc + 1 ≠ s.config.prescale := by simp [State.pwrap]
@[simp] theorem cexp_iff (s : State) : s.cexp = true ↔ s.cnt ≤ 1 := by simp [State.cexp]
@[simp] theorem cexp_eq_false_iff (s : State) : s.cexp = false ↔ 2 ≤ s.cnt := by simp [State.cexp]; omega
@[simp] theorem iend_iff (s : State) : s.iend = true ↔ 256 ≤ s.index.toNat := by simp [State.iend]
@[simp] theorem iend_eq_false_iff (s : State) : s.iend = false ↔ s.index.toNat < 256 := by simp [State.iend]

/-- The tick request in terms of the registers (R134). -/
theorem tickRequest_iff (s : State) :
    s.tickRequest = true ↔ s.run = true ∧ s.psc + 1 = s.config.prescale ∧ s.cnt ≤ 1 := by
  simp [State.tickRequest, and_assoc]

/-! The control word's bits (R75). -/

theorem controlWord_run (s : State) : s.controlWord.getLsbD 4 = s.run := by
  unfold State.controlWord
  generalize s.run = a; generalize s.fnz = b; generalize s.pwrap = c; generalize s.cexp = d; generalize s.iend = e
  revert a b c d e; decide

theorem controlWord_fnz (s : State) : s.controlWord.getLsbD 3 = s.fnz := by
  unfold State.controlWord
  generalize s.run = a; generalize s.fnz = b; generalize s.pwrap = c; generalize s.cexp = d; generalize s.iend = e
  revert a b c d e; decide

theorem controlWord_pwrap (s : State) : s.controlWord.getLsbD 2 = s.pwrap := by
  unfold State.controlWord
  generalize s.run = a; generalize s.fnz = b; generalize s.pwrap = c; generalize s.cexp = d; generalize s.iend = e
  revert a b c d e; decide

theorem controlWord_cexp (s : State) : s.controlWord.getLsbD 1 = s.cexp := by
  unfold State.controlWord
  generalize s.run = a; generalize s.fnz = b; generalize s.pwrap = c; generalize s.cexp = d; generalize s.iend = e
  revert a b c d e; decide

theorem controlWord_iend (s : State) : s.controlWord.getLsbD 0 = s.iend := by
  unfold State.controlWord
  generalize s.run = a; generalize s.fnz = b; generalize s.pwrap = c; generalize s.cexp = d; generalize s.iend = e
  revert a b c d e; decide

end Sys2Proof.Machine
end

