-- ==== Sys2Proof/Laws/Cycle.lean ====
section
/-! SUPPORT. Laws/Cycle.lean: what a step can do, said once (40_cycle_step R90 to R93), and what selects each operation. -/

namespace Sys2Proof.Machine

/-- A stimulus word decodes to `RESET` exactly if `SW[19] = 1` (R72). -/
theorem decodeSW_eq_reset_iff (w : StimulusWord) : decodeSW w = .reset ↔ w.getLsbD 19 = true := by
  have key : w &&& 0x80000#20 = 0x80000#20 ↔ w.getLsbD 19 = true := by
    constructor
    · intro h
      have := congrArg (fun x => BitVec.getLsbD x 19) h
      simpa using this
    · intro h
      apply BitVec.eq_of_getLsbD_eq
      intro i hi
      have h19 : (0x80000#20).getLsbD i = decide (i = 19) := by
        revert i; decide
      rw [BitVec.getLsbD_and, h19]
      by_cases hi' : i = 19
      · subst hi'; simp [h]
      · simp [hi']
  rw [← key]
  unfold decodeSW
  constructor
  · intro h
    by_cases hn : w &&& 0x80000#20 = 0x80000#20
    · exact hn
    · rw [if_neg hn] at h
      repeat' split at h
      all_goals exact Instr.noConfusion h
  · intro h
    rw [if_pos h]

/-- What a host command can do: store what it publishes in `FREQ`, or nothing (R92, R100 to R103). -/
theorem exec_decodeSW (s : State) (w : StimulusWord) (h : w.getLsbD 19 = false) :
    exec (decodeSW w) s = .next { s with freq := (published (decodeSW w)).getD s.freq } := by
  have hn : ¬ w &&& 0x80000#20 = 0x80000#20 := fun hw => by
    have hr : decodeSW w = .reset := by unfold decodeSW; rw [if_pos hw]
    rw [(decodeSW_eq_reset_iff w).1 hr] at h
    exact Bool.noConfusion h
  unfold decodeSW
  rw [if_neg hn]
  repeat' split
  all_goals rfl

/-- The decode of the control word in terms of its conditions (R76, R93). -/
theorem decodeCW_controlWord (s : State) : decodeCW s.controlWord =
    if s.run then (if s.pwrap then (if s.cexp then Instr.tick else .cntdec) else .pscinc)
    else (if s.fnz then .start else .hold) := by
  unfold State.controlWord
  generalize s.run = a; generalize s.fnz = b; generalize s.pwrap = c; generalize s.cexp = d; generalize s.iend = e
  revert a b c d e; decide

/-- The control word decodes to `TICK` exactly if the tick is requested (R134, R172). -/
theorem decodeCW_eq_tick_iff (s : State) : decodeCW s.controlWord = .tick ↔ s.tickRequest = true := by
  rw [decodeCW_controlWord]
  unfold State.tickRequest
  cases s.run <;> cases s.pwrap <;> cases s.cexp <;> cases s.fnz <;> simp

/-- What a step can do: `RESET` alone, or the two decoded operations on the pre-edge state, merged (R90 to R92). -/
theorem step_eq_next_iff {s t : State} : step s = .next t ↔
    (s.currentWord.getLsbD 19 = true ∧ ∃ a, exec .reset s = .next a ∧ t = a.nextCycle) ∨
    (s.currentWord.getLsbD 19 = false ∧ ∃ e h, exec (decodeCW s.controlWord) s = .next e ∧
      exec (decodeSW s.currentWord) s = .next h ∧ t = (e.merge h).nextCycle) := by
  unfold step runCycle
  by_cases hr : s.currentWord.getLsbD 19 = true
  · rw [if_pos ((decodeSW_eq_reset_iff _).2 hr), finish_eq_next]
    constructor
    · exact fun h => .inl ⟨hr, h⟩
    · rintro (⟨-, h⟩ | ⟨h, -⟩)
      · exact h
      · rw [hr] at h; exact Bool.noConfusion h
  · have hn : decodeSW s.currentWord ≠ .reset := fun h => hr ((decodeSW_eq_reset_iff _).1 h)
    rw [if_neg hn, finish_eq_next]
    simp only [combine_eq_next, enginePart, hostPart]
    constructor
    · rintro ⟨a, ⟨e, h, he, hh, rfl⟩, rfl⟩
      exact .inr ⟨by simpa using hr, e, h, he, hh, rfl⟩
    · rintro (⟨h, -⟩ | ⟨-, e, h, he, hh, rfl⟩)
      · exact absurd h hr
      · exact ⟨_, ⟨e, h, he, hh, rfl⟩, rfl⟩

/-- A run of one cycle more is a step and a run from where it leads. -/
theorem run_succ_eq_next {n : Nat} {s t : State} :
    Host.Core.run Sys2Proof.core (n + 1) s = .next t ↔ ∃ u, step s = .next u ∧ Host.Core.run Sys2Proof.core n u = .next t := by
  have hs : Sys2Proof.core.step s = step s := rfl
  cases h : step s <;> simp [Host.Core.run, hs, h]

end Sys2Proof.Machine
end

