-- ==== Sys2Proof/Laws/Decode.lean ====
section
/-! SUPPORT. Laws/Decode.lean: the decode of a stimulus word by its four selecting bits (30_encoding R72 to R74). -/

namespace Sys2Proof

/-- A mask of selecting bits looks at them alone. -/
theorem append_mask (h m : BitVec 4) (x : BitVec 16) : (h ++ x) &&& (m ++ 0#16) = (h &&& m) ++ 0#16 := by
  ext i hi
  simp only [BitVec.getElem_and, BitVec.getElem_append]
  split <;> simp

theorem append_zero_inj (a b : BitVec 4) : a ++ 0#16 = b ++ 0#16 ↔ a = b := by
  revert a b; decide

/-- The decode of selecting bits `h` and data `x`. -/
theorem decodeSW_append (h : BitVec 4) (x : BitVec 16) : decodeSW (h ++ x) =
    if h &&& 0x8#4 = 0x8#4 then .reset
    else if h &&& 0xC#4 = 0x0#4 then .nop
    else if h = 0x4#4 then .wrfreq x
    else if h = 0x5#4 then .wrsamp (x.extractLsb' 0 10)
    else if h = 0x6#4 then .wrrsv2 x
    else .wrrsv3 x := by
  have hf : h &&& 0xF#4 = h := by revert h; decide
  have hd : dataField (h ++ x) = x := by
    apply BitVec.eq_of_getLsbD_eq; intro i hi; 
    rw [dataField, BitVec.getLsbD_extractLsb']
    refine (congrArg _ (BitVec.getLsbD_append (x := h) (y := x) (i := 0 + i))).trans ?_
    simp [hi]
  have hs : sampleField (h ++ x) = x.extractLsb' 0 10 := by
    apply BitVec.eq_of_getLsbD_eq; intro i hi; 
    rw [sampleField, BitVec.getLsbD_extractLsb', BitVec.getLsbD_extractLsb']
    refine (congrArg _ (BitVec.getLsbD_append (x := h) (y := x) (i := 0 + i))).trans ?_
    simp [show i < 16 by omega]
  have key : ∀ m c : BitVec 4, ((h ++ x) &&& (m ++ 0#16) = c ++ 0#16) ↔ h &&& m = c := fun m c => by
    rw [append_mask, append_zero_inj]
  unfold decodeSW
  rw [hd, hs]
  have k1 := key 0x8#4 0x8#4
  have k2 := key 0xC#4 0x0#4
  have k3 := key 0xF#4 0x4#4
  have k4 := key 0xF#4 0x5#4
  have k5 := key 0xF#4 0x6#4
  rw [hf] at k3 k4 k5
  simp only [← k1, ← k2, ← k3, ← k4, ← k5]
  rfl

/-- A stimulus word is its four selecting bits and its data. -/
theorem append_split (w : StimulusWord) : w = w.extractLsb' 16 4 ++ dataField w := by
  apply BitVec.eq_of_getLsbD_eq
  intro i hi
  rw [BitVec.getLsbD_append]
  by_cases h : i < 16
  · simp [dataField, h]
  · have h4 : i - 16 < 4 := by omega
    simp [h, h4, show 16 + (i - 16) = i by omega]

end Sys2Proof
end

