-- ==== Sys2Proof/Laws/Memory.lean ====
section
/-! SUPPORT. Laws/Memory.lean: the ROM's memory laws: read after write, a write leaves the other addresses alone, and the
canonical form is kept. -/

namespace Sys2Proof.Rom

/-- What an address reads as, listed or not. -/
def valueAt (m : Memory) (a : Nat) : Byte := (lookup m a).getD (defaultByte a)

theorem read_eq_valueAt (m : Memory) (a : Nat) : read m a = valueAt m (a % 256) := rfl

/-- A memory in canonical form from `lo` on lists nothing below `lo`. -/
theorem lookup_of_lt {m : Memory} {lo a : Nat} : wfFrom lo m = true → a < lo → lookup m a = none := by
  induction m generalizing lo with
  | nil => intros; rfl
  | cons e rest ih =>
    obtain ⟨x, v⟩ := e
    intro h ha
    simp only [wfFrom, Bool.and_eq_true, decide_eq_true_eq] at h
    have hx : x ≠ a := by omega
    simp only [lookup, hx, if_false]
    exact ih h.2 (by omega)

/-- The canonical form from an address on is one from any lower address on. -/
theorem wfFrom_mono {m : Memory} {lo lo' : Nat} (h : wfFrom lo m = true) (hl : lo' ≤ lo) : wfFrom lo' m = true := by
  cases m with
  | nil => rfl
  | cons e rest =>
    simp only [wfFrom, Bool.and_eq_true, decide_eq_true_eq] at h ⊢
    exact ⟨⟨⟨by omega, h.1.1.2⟩, h.1.2⟩, h.2⟩

/-- Insertion keeps the canonical form. -/
theorem wfFrom_insert {m : Memory} {lo a : Nat} {b : Byte} (ha : a < 256) : wfFrom lo m = true → lo ≤ a →
    wfFrom lo (insert a b m) = true := by
  induction m generalizing lo with
  | nil =>
    intro _ hlo
    by_cases hb : b = defaultByte a <;> simp [insert, wfFrom, hb, hlo, ha]
  | cons e rest ih =>
    obtain ⟨x, v⟩ := e
    intro h hlo
    have h' := h
    simp only [wfFrom, Bool.and_eq_true, decide_eq_true_eq] at h'
    obtain ⟨⟨⟨hlx, hx⟩, hv⟩, hr⟩ := h'
    unfold insert
    split
    · split
      · exact h
      · simp only [wfFrom, Bool.and_eq_true, decide_eq_true_eq]
        exact ⟨⟨⟨hlo, ha⟩, ‹_›⟩, ⟨⟨by omega, hx⟩, hv⟩, hr⟩
    · split
      · subst a
        split
        · exact wfFrom_mono hr (by omega)
        · simp only [wfFrom, Bool.and_eq_true, decide_eq_true_eq]
          exact ⟨⟨⟨hlx, hx⟩, ‹_›⟩, hr⟩
      · simp only [wfFrom, Bool.and_eq_true, decide_eq_true_eq]
        exact ⟨⟨⟨hlx, hx⟩, hv⟩, ih hr (by omega)⟩

/-- Reading after an insertion: the inserted value at its address, the old value elsewhere. -/
theorem valueAt_insert {m : Memory} {lo a : Nat} {b : Byte} (c : Nat) : wfFrom lo m = true →
    valueAt (insert a b m) c = if c = a then b else valueAt m c := by
  induction m generalizing lo with
  | nil =>
    intro _
    by_cases hc : c = a
    · subst hc
      by_cases hb : b = defaultByte c <;> simp [valueAt, insert, lookup, hb]
    · have hc' : a ≠ c := fun h => hc h.symm
      by_cases hb : b = defaultByte a <;> simp [valueAt, insert, lookup, hb, hc, hc']
  | cons e rest ih =>
    obtain ⟨x, v⟩ := e
    intro h
    simp only [wfFrom, Bool.and_eq_true, decide_eq_true_eq] at h
    obtain ⟨⟨⟨hlx, hx⟩, hv⟩, hr⟩ := h
    have hrest : ∀ y, y < x + 1 → lookup rest y = none := fun y hy => lookup_of_lt hr hy
    unfold insert
    by_cases h1 : a < x
    · simp only [h1, if_true]
      by_cases hc : c = a
      · subst hc
        have : x ≠ c := by omega
        by_cases hb : b = defaultByte c
        · simp [valueAt, lookup, hb, this, hrest c (by omega)]
        · simp [valueAt, lookup, hb]
      · have hc' : a ≠ c := fun h => hc h.symm
        by_cases hb : b = defaultByte a <;> simp [valueAt, lookup, hb, hc, hc']
    · simp only [h1, if_false]
      by_cases h2 : a = x
      · subst h2
        by_cases hc : c = a
        · subst hc
          by_cases hb : b = defaultByte c
          · simp [valueAt, hb, hrest c (by omega)]
          · simp [valueAt, lookup, hb]
        · have hc' : a ≠ c := fun h => hc h.symm
          by_cases hb : b = defaultByte a <;> simp [valueAt, lookup, hb, hc, hc']
      · simp only [h2, if_false]
        by_cases hcx : x = c
        · subst hcx
          have : x ≠ a := fun h => h2 h.symm
          simp [valueAt, lookup, this]
        · have := ih hr
          simp only [valueAt] at this ⊢
          simp [lookup, hcx, this]

/-- Every write keeps the canonical form. -/
theorem wf_write {m : Memory} (h : Memory.wf m = true) (a : Nat) (b : Byte) : Memory.wf (write m a b) = true :=
  wfFrom_insert (Nat.mod_lt _ (by decide)) h (Nat.zero_le _)

/-- A read after a write to the same ROM address gives the value written. -/
theorem read_write_same {m : Memory} (h : Memory.wf m = true) (a : Nat) (b : Byte) : read (write m a b) a = b := by
  rw [read_eq_valueAt, write, valueAt_insert _ h, if_pos rfl]

/-- A write leaves every other ROM address alone. -/
theorem read_write_other {m : Memory} (h : Memory.wf m = true) {a c : Nat} (b : Byte) (hc : c % 256 ≠ a % 256) :
    read (write m a b) c = read m c := by
  rw [read_eq_valueAt, write, valueAt_insert _ h, if_neg hc, read_eq_valueAt]

/-- The empty memory, reset's, is in canonical form. -/
theorem wf_nil : Memory.wf [] = true := rfl

end Sys2Proof.Rom
end

