-- ==== Sys2Proof/Laws/PerInstr.lean ====
section
/-! SUPPORT. Laws/PerInstr.lean: statements for every operation, one lemma per constructor. `EncodesItsRow`: the encoder's
word is of the operation's format and hits its row of spec/opcode_table.json. -/

namespace Sys2Proof.Laws.EncodesItsRow

/-- The encoded word has the row's format and the row's examined bits, whatever the operand. -/
def Statement (i : Instr) : Prop :=
  (encode i).bits.1 = (rowOf i).format ∧ (rowOf i).hits (encode i).bits.2 = true

/-- The examined bits of a host command are its four top bits: the operand below does not reach them. -/
theorem top_bits (n d : Nat) (hd : d < 2 ^ 16) : Nat.land (n * 2 ^ 16 + d) 0xF0000 = Nat.land n 15 * 2 ^ 16 := by
  have h : n * 2 ^ 16 + d = 2 ^ 16 * n ||| d := by rw [Nat.mul_comm, Nat.two_pow_add_eq_or_of_lt hd]
  rw [h]
  apply Nat.eq_of_testBit_eq
  intro j
  have e : (0xF0000 : Nat) = 15 * 2 ^ 16 := by decide
  have l : ∀ x y, Nat.land x y = x &&& y := fun _ _ => rfl
  rw [e, l, l, Nat.testBit_and, Nat.testBit_or, Nat.testBit_two_pow_mul, Nat.testBit_mul_two_pow,
    Nat.testBit_mul_two_pow, Nat.testBit_and]
  by_cases hj : 16 ≤ j
  · have : d.testBit j = false :=
      Nat.testBit_lt_two_pow (Nat.lt_of_lt_of_le hd (Nat.pow_le_pow_right (by decide) hj))
    simp [hj, this]
  · simp [hj]

/-- A row with an operand of 16 bits below its four top bits. -/
theorem hits_of_operand (n : BitVec 4) (d : BitVec 16) :
    Nat.land (n ++ d).toNat 0xF0000 = Nat.land n.toNat 15 * 2 ^ 16 := by
  have h : (n ++ d).toNat = n.toNat * 2 ^ 16 + d.toNat := by
    rw [BitVec.toNat_append, Nat.shiftLeft_eq, Nat.mul_comm, Nat.two_pow_add_eq_or_of_lt d.isLt]
  rw [h, top_bits _ _ d.isLt]

theorem reset : Statement .reset := ⟨rfl, rfl⟩
theorem nop : Statement .nop := ⟨rfl, rfl⟩

theorem wrfreq (d : Frequency) : Statement (.wrfreq d) :=
  ⟨rfl, by simp only [encode, Encoded.bits, rowOf, Row.hits, hits_of_operand]; decide⟩

theorem wrsamp (v : Sample) : Statement (.wrsamp v) := by
  refine ⟨rfl, ?_⟩
  have h : (0b0101#4 ++ 0#6 ++ v).toNat = 5 * 2 ^ 16 + v.toNat := by
    rw [BitVec.toNat_append, Nat.shiftLeft_eq, BitVec.toNat_append, Nat.shiftLeft_eq,
      Nat.mul_comm, ← Nat.two_pow_add_eq_or_of_lt v.isLt]
    rfl
  have hv : v.toNat < 2 ^ 16 := Nat.lt_trans v.isLt (by decide)
  simp only [encode, Encoded.bits, rowOf, Row.hits, h, top_bits _ _ hv]
  decide

theorem wrrsv2 (x : BitVec 16) : Statement (.wrrsv2 x) :=
  ⟨rfl, by simp only [encode, Encoded.bits, rowOf, Row.hits, hits_of_operand]; decide⟩

theorem wrrsv3 (x : BitVec 16) : Statement (.wrrsv3 x) :=
  ⟨rfl, by simp only [encode, Encoded.bits, rowOf, Row.hits, hits_of_operand]; decide⟩

theorem hold : Statement .hold := ⟨rfl, rfl⟩
theorem start : Statement .start := ⟨rfl, rfl⟩
theorem pscinc : Statement .pscinc := ⟨rfl, rfl⟩
theorem cntdec : Statement .cntdec := ⟨rfl, rfl⟩
theorem tick : Statement .tick := ⟨rfl, rfl⟩
theorem tLatch : Statement .tLatch := ⟨rfl, rfl⟩
theorem tPload : Statement .tPload := ⟨rfl, rfl⟩
theorem tHalt : Statement .tHalt := ⟨rfl, rfl⟩
theorem tWrap : Statement .tWrap := ⟨rfl, rfl⟩
theorem tOut0 : Statement .tOut0 := ⟨rfl, rfl⟩
theorem tOut1 : Statement .tOut1 := ⟨rfl, rfl⟩
theorem tOut2 : Statement .tOut2 := ⟨rfl, rfl⟩
theorem tInc : Statement .tInc := ⟨rfl, rfl⟩

end Sys2Proof.Laws.EncodesItsRow
end

