-- ==== Sys2Proof/Laws/Tick.lean ====
section
/-! SUPPORT. Laws/Tick.lean: what each step of a tick can do, field by field (44_engine_tick R145). -/

namespace Sys2Proof.Machine.State

variable (s t : State) (i p : Nat)

@[simp] theorem tickTimer_config : s.tickTimer.config = s.config := by unfold tickTimer; split <;> rfl
@[simp] theorem tickTimer_freq : s.tickTimer.freq = s.freq := by unfold tickTimer; split <;> rfl
@[simp] theorem tickTimer_index : s.tickTimer.index = s.index := by unfold tickTimer; split <;> rfl
@[simp] theorem tickTimer_duty0 : s.tickTimer.duty0 = s.duty0 := by unfold tickTimer; split <;> rfl
@[simp] theorem tickTimer_duty1 : s.tickTimer.duty1 = s.duty1 := by unfold tickTimer; split <;> rfl
@[simp] theorem tickTimer_duty2 : s.tickTimer.duty2 = s.duty2 := by unfold tickTimer; split <;> rfl
@[simp] theorem tickTimer_stimulus : s.tickTimer.stimulus = s.stimulus := by unfold tickTimer; split <;> rfl
@[simp] theorem tickTimer_freeCount : s.tickTimer.freeCount = s.freeCount := by unfold tickTimer; split <;> rfl
@[simp] theorem tickTimer_period : s.tickTimer.period = s.tickPeriod := by unfold tickTimer tickPeriod; split <;> rfl
@[simp] theorem tickTimer_psc : s.tickTimer.psc = 0 := by unfold tickTimer; split <;> rfl
@[simp] theorem tickTimer_cnt : s.tickTimer.cnt = if s.freq = 0x0000#16 then 0 else s.tickPeriod := by
  unfold tickTimer tickPeriod; split <;> rfl
@[simp] theorem tickTimer_run : s.tickTimer.run = if s.freq = 0x0000#16 then false else s.run := by
  unfold tickTimer; split <;> rfl

/-- The period a tick uses is `PCONV` of a non-zero frequency (R147). -/
theorem tickPeriod_of_ne (h : s.freq ≠ 0x0000#16) : s.tickPeriod = pconv s.config s.freq h := by
  unfold tickPeriod; rw [dif_neg h]

/-- The period a halting tick uses is the retained one (R148). -/
theorem tickPeriod_of_eq (h : s.freq = 0x0000#16) : s.tickPeriod = s.period := by
  unfold tickPeriod; rw [dif_pos h]

@[simp] theorem tickOutput_config : (s.tickOutput t i p).config = t.config := rfl
@[simp] theorem tickOutput_freq : (s.tickOutput t i p).freq = t.freq := rfl
@[simp] theorem tickOutput_period : (s.tickOutput t i p).period = t.period := rfl
@[simp] theorem tickOutput_index : (s.tickOutput t i p).index = BitVec.ofNat 9 (i + 1) := rfl
@[simp] theorem tickOutput_duty0 : (s.tickOutput t i p).duty0 = s.dutyValue i p .ch0 := rfl
@[simp] theorem tickOutput_duty1 : (s.tickOutput t i p).duty1 = s.dutyValue i p .ch1 := rfl
@[simp] theorem tickOutput_duty2 : (s.tickOutput t i p).duty2 = s.dutyValue i p .ch2 := rfl
@[simp] theorem tickOutput_run : (s.tickOutput t i p).run = t.run := rfl
@[simp] theorem tickOutput_psc : (s.tickOutput t i p).psc = t.psc := rfl
@[simp] theorem tickOutput_cnt : (s.tickOutput t i p).cnt = t.cnt := rfl
@[simp] theorem tickOutput_stimulus : (s.tickOutput t i p).stimulus = t.stimulus := rfl
@[simp] theorem tickOutput_freeCount : (s.tickOutput t i p).freeCount = t.freeCount := rfl

/-- A tick either is the dead tick or outputs at its local index (R145, R149, R150). -/
theorem tickState_eq : s.tickState =
    if s.reachesOutput then s.tickOutput s.tickTimer s.tickIndex s.tickPeriod else s.tickTimer.setIndex 0 := by
  unfold tickState reachesOutput tickIndex iend
  by_cases h : 256 ≤ s.index.toNat <;> cases hm : s.config.wrapMode <;> simp [h]

end Sys2Proof.Machine.State

namespace Sys2Proof.Machine

/-! The frame of each sub-operation: the registers it can write, and no other. -/

theorem tPloadWrites_frame (s t : State) : tPloadWrites s t = { t with period := (tPloadWrites s t).period, psc := (tPloadWrites s t).psc, cnt := (tPloadWrites s t).cnt } :=
  by unfold tPloadWrites; split <;> rfl

theorem tHaltWrites_frame (s t : State) : tHaltWrites s t = { t with run := (tHaltWrites s t).run, psc := (tHaltWrites s t).psc, cnt := (tHaltWrites s t).cnt } :=
  by unfold tHaltWrites; split <;> rfl

theorem tWrapWrites_frame (s t : State) : tWrapWrites s t = { t with index := (tWrapWrites s t).index } :=
  by unfold tWrapWrites; split <;> (try split) <;> rfl

theorem tOut0Writes_frame (s t : State) : tOut0Writes s t = { t with duty0 := (tOut0Writes s t).duty0 } :=
  by unfold tOut0Writes; split <;> rfl

theorem tOut1Writes_frame (s t : State) : tOut1Writes s t = { t with duty1 := (tOut1Writes s t).duty1 } :=
  by unfold tOut1Writes; split <;> rfl

theorem tOut2Writes_frame (s t : State) : tOut2Writes s t = { t with duty2 := (tOut2Writes s t).duty2 } :=
  by unfold tOut2Writes; split <;> rfl

theorem tIncWrites_frame (s t : State) : tIncWrites s t = { t with index := (tIncWrites s t).index } :=
  by unfold tIncWrites; split <;> rfl

theorem tLatchWrites_frame (s t : State) : tLatchWrites s t = t :=
  rfl

end Sys2Proof.Machine
end

