-- ==== Sys2Proof/Tests/Slice0.lean ====
section
/-! SUPPORT. Tests/Slice0.lean: well-formedness refusals, words written out from the encodings, single-step vectors of
spec/95_test_vectors, and a witness for the hypotheses of every statement that has any. -/

namespace Sys2Proof.Tests

open Sys2Proof Sys2Proof.Machine

/-! ## Well-formedness: an ill-formed term for each check -/

/-- The reference configuration passes. -/
theorem test_wf_reference : Config.reference.wellFormed = true := by decide
theorem test_wf_refuses_clock_zero : (Config.wellFormed { Config.reference with fClk := 0 }) = false := by decide
theorem test_wf_refuses_prescale_zero : (Config.wellFormed { Config.reference with prescale := 0 }) = false := by decide
theorem test_wf_refuses_width_zero : (Config.wellFormed { Config.reference with pw := 0 }) = false := by decide
theorem test_wf_refuses_width_seventeen : (Config.wellFormed { Config.reference with pw := 17 }) = false := by decide
theorem test_wf_refuses_unsorted_rom :
    (Config.wellFormed { Config.reference with sineRom := [(3, 1#8), (2, 1#8)] }) = false := by decide
theorem test_wf_refuses_rom_address_256 :
    (Config.wellFormed { Config.reference with sineRom := [(256, 1#8)] }) = false := by decide
/-- Entry 0 of the default table is 128 (R52), so listing it breaks the canonical form. -/
theorem test_wf_refuses_rom_default_entry :
    (Config.wellFormed { Config.reference with sineRom := [(0, 128#8)] }) = false := by decide
theorem test_wf_refuses_operands_out_of_range :
    Stmt.wellFormed (.wrfreq 65536) = false ∧ Stmt.wellFormed (.wrsamp 1024) = false ∧
    Stmt.wellFormed (.wrrsv2 65536) = false ∧ Stmt.wellFormed (.wrrsv3 65536) = false ∧
    Stmt.wellFormed (.pubhz 256) = false ∧ Stmt.wellFormed (.rstn 0) = false := by decide

/-! ## Words written out from R72, R76 and the tables of 95_test_vectors 2.1 -/

theorem test_decode_stimulus_words :
    decodeSW 0x80000#20 = .reset ∧ decodeSW 0xFFFFF#20 = .reset ∧ decodeSW 0xC0000#20 = .reset ∧
    decodeSW 0x00000#20 = .nop ∧ decodeSW 0x3FFFF#20 = .nop ∧ decodeSW 0x40000#20 = .wrfreq 0#16 ∧
    decodeSW 0x47800#20 = .wrfreq 0x7800#16 ∧ decodeSW 0x4FFFF#20 = .wrfreq 0xFFFF#16 ∧
    decodeSW 0x503FF#20 = .wrsamp 1023#10 ∧ decodeSW 0x5FFFF#20 = .wrsamp 1023#10 ∧ decodeSW 0x5FC00#20 = .wrsamp 0#10 ∧
    decodeSW 0x6ABCD#20 = .wrrsv2 0xABCD#16 ∧ decodeSW 0x70000#20 = .wrrsv3 0#16 := by decide

/-- Bits {run, fnz, pwrap, cexp, iend}, with the unexamined ones set. -/
theorem test_decode_control_words :
    decodeCW 0b00111#5 = .hold ∧ decodeCW 0b01111#5 = .start ∧ decodeCW 0b11011#5 = .pscinc ∧
    decodeCW 0b11101#5 = .cntdec ∧ decodeCW 0b11111#5 = .tick := by decide

/-- The tick rows of the control-word table of 95_test_vectors 2.1. -/
theorem test_decode_tick_schedules :
    tickSchedule .dead 0b11110#5 = [.tLatch, .tPload, .tOut0, .tOut1, .tOut2, .tInc] ∧
    tickSchedule .dead 0b10110#5 = [.tLatch, .tHalt, .tOut0, .tOut1, .tOut2, .tInc] ∧
    tickSchedule .dead 0b11111#5 = [.tLatch, .tPload, .tWrap] ∧
    tickSchedule .cont 0b11111#5 = [.tLatch, .tPload, .tWrap, .tOut0, .tOut1, .tOut2, .tInc] := by decide

theorem test_decode_rejects_by_name :
    decode .sw 0x100000 = .error .stimulusWordTooWide ∧ decode .cw 32 = .error .controlWordTooWide ∧
    decodeTableWord 16 0 = none := ⟨rfl, rfl, rfl⟩

/-! ## Single steps: the vectors of 95_test_vectors -/

/-- The registers in the order the vectors write them. -/
structure Regs where
  freq : Nat
  period : Nat
  index : Nat
  duty : Nat × Nat × Nat
  run : Bool
  psc : Nat
  cnt : Nat
deriving DecidableEq, Repr

/-- The registers of a state, as numbers. -/
def regs (s : State) : Regs where
  freq := s.freq.toNat
  period := s.period
  index := s.index.toNat
  duty := (s.duty0.toNat, s.duty1.toNat, s.duty2.toNat)
  run := s.run
  psc := s.psc
  cnt := s.cnt

/-- A state with these registers and one stimulus word to come. -/
def st (c : Config) (f p i : Nat) (d : Nat × Nat × Nat) (r : Bool) (psc cnt : Nat) (w : StimulusWord) : State where
  config := c
  freq := BitVec.ofNat 16 f
  period := p
  index := BitVec.ofNat 9 i
  duty0 := BitVec.ofNat 8 d.1
  duty1 := BitVec.ofNat 8 d.2.1
  duty2 := BitVec.ofNat 8 d.2.2
  run := r
  psc := psc
  cnt := cnt
  stimulus := [w]
  freeCount := 0

/-- The registers an outcome leaves, if it is a next state. -/
def regsOf (o : Host.Outcome State Fault Refusal) : Option Regs :=
  match o with
  | .next t => some (regs t)
  | .fault _ => none
  | .refused _ => none

def ref : Config := Config.reference
def cont : Config := { Config.reference with wrapMode := .cont }
def scaled : Config := { Config.reference with dutyScale := true }
def wide : Config := { Config.reference with pw := 16 }
def tiny : Config := { Config.reference with fClk := 1, prescale := 1 }

theorem test_reset_v1 : regsOf (step (st ref 0x1234 17 200 (1, 2, 3) true 77 9 0x80000#20)) =
    some ⟨0, 255, 0, (128, 128, 128), false, 0, 0⟩ := by decide
theorem test_reset_v22_discards_due_tick : regsOf (step (st ref 0x0100 244 171 (128, 128, 128) true 255 1 0xC0000#20)) =
    some ⟨0, 255, 0, (128, 128, 128), false, 0, 0⟩ := by decide
theorem test_nop_v3b : regsOf (step (st ref 0 255 0 (128, 128, 128) false 0 0 0x3FFFF#20)) =
    some ⟨0, 255, 0, (128, 128, 128), false, 0, 0⟩ := by decide
theorem test_wrfreq_v4 : regsOf (step (st ref 0 255 0 (128, 128, 128) false 0 0 0x40100#20)) =
    some ⟨0x0100, 255, 0, (128, 128, 128), false, 0, 0⟩ := by decide
theorem test_wrsamp_v5 : regsOf (step (st ref 0 255 0 (128, 128, 128) false 0 0 0x50001#20)) =
    some ⟨0x001E, 255, 0, (128, 128, 128), false, 0, 0⟩ := by decide
theorem test_wrsamp_v6 : regsOf (step (st ref 0 255 0 (128, 128, 128) false 0 0 0x5FFFF#20)) =
    some ⟨0x7800, 255, 0, (128, 128, 128), false, 0, 0⟩ := by decide
theorem test_wrrsv2_v7 : regsOf (step (st ref 0x0100 255 0 (128, 128, 128) false 0 0 0x6ABCD#20)) =
    some ⟨0x0100, 244, 0, (128, 128, 128), true, 0, 244⟩ := by decide
theorem test_wrrsv3_v7b : regsOf (step (st ref 0x0100 255 0 (128, 128, 128) false 0 0 0x70000#20)) =
    some ⟨0x0100, 244, 0, (128, 128, 128), true, 0, 244⟩ := by decide
theorem test_hold_v23 : regsOf (step (st ref 0 244 5 (128, 128, 128) false 0 0 0x40000#20)) =
    some ⟨0, 244, 5, (128, 128, 128), false, 0, 0⟩ := by decide
theorem test_start_v24_wide : regsOf (step (st wide 1 65535 0 (128, 128, 128) false 0 0 0#20)) =
    some ⟨1, 62500, 0, (128, 128, 128), true, 0, 62500⟩ := by decide
theorem test_start_v25_clamped_up : regsOf (step (st tiny 0x7800 255 0 (128, 128, 128) false 0 0 0#20)) =
    some ⟨0x7800, 1, 0, (128, 128, 128), true, 0, 1⟩ := by decide
theorem test_pscinc_v9b : regsOf (step (st ref 0x0100 244 0 (128, 128, 128) true 254 244 0#20)) =
    some ⟨0x0100, 244, 0, (128, 128, 128), true, 255, 244⟩ := by decide
theorem test_cntdec_v10b : regsOf (step (st ref 0x0100 244 0 (128, 128, 128) true 255 2 0#20)) =
    some ⟨0x0100, 244, 0, (128, 128, 128), true, 0, 1⟩ := by decide
theorem test_tick_v12 : regsOf (step (st ref 0x0200 244 64 (9, 9, 9) true 255 1 0#20)) =
    some ⟨0x0200, 122, 65, (255, 65, 63), true, 0, 122⟩ := by decide
theorem test_tick_v18_scaled : regsOf (step (st scaled 0x0100 100 64 (9, 9, 9) true 255 1 0#20)) =
    some ⟨0x0100, 244, 65, (243, 62, 60), true, 0, 244⟩ := by decide
/-- V21: the tick latched the old frequency; the host's zero lands beside it. -/
theorem test_tLatch_v21 : regsOf (step (st ref 0x0100 244 171 (128, 128, 128) true 255 1 0x50000#20)) =
    some ⟨0, 244, 172, (17, 128, 239), true, 0, 244⟩ := by decide
/-- R147's example: `f = 0x0100` gives 244. -/
theorem test_tPload_example : regsOf (exec .tPload (st ref 0x0100 9 5 (9, 9, 9) true 255 1 0#20)) =
    some ⟨0x0100, 244, 5, (9, 9, 9), true, 0, 244⟩ := by decide
/-- V26: the quotient 0 is clamped to 1. -/
theorem test_tPload_v26 : regsOf (step (st tiny 0x7800 1 10 (128, 128, 128) true 0 1 0#20)) =
    some ⟨0x7800, 1, 11, (159, 220, 6), true, 0, 1⟩ := by decide
theorem test_tHalt_v13 : regsOf (step (st ref 0 244 64 (9, 9, 9) true 255 1 0#20)) =
    some ⟨0, 244, 65, (255, 65, 63), false, 0, 0⟩ := by decide
theorem test_tHalt_v19_scaled : regsOf (step (st scaled 0 100 64 (9, 9, 9) true 255 1 0#20)) =
    some ⟨0, 100, 65, (100, 25, 25), false, 0, 0⟩ := by decide
theorem test_tWrap_v15_dead : regsOf (step (st ref 0x0100 244 256 (125, 240, 21) true 255 1 0#20)) =
    some ⟨0x0100, 244, 0, (125, 240, 21), true, 0, 244⟩ := by decide
theorem test_tWrap_v17b_cont : regsOf (step (st cont 0 244 256 (125, 240, 21) true 255 1 0#20)) =
    some ⟨0, 244, 1, (128, 239, 19), false, 0, 0⟩ := by decide
/-- R151's example with `DUTY_SCALE = 1`: `i = 0`, `p = 2` gives 1. -/
theorem test_tOut0_example : regsOf (exec .tOut0 (st scaled 0x7800 9 0 (9, 9, 9) true 255 1 0#20)) =
    some ⟨0x7800, 9, 0, (1, 9, 9), true, 255, 1⟩ := by decide
/-- R152's example: `i = 171` reads entry 0, which is 128. -/
theorem test_tOut1_example : regsOf (exec .tOut1 (st ref 0x0100 9 171 (9, 9, 9) true 255 1 0#20)) =
    some ⟨0x0100, 9, 171, (9, 128, 9), true, 255, 1⟩ := by decide
/-- R153's example: `i = 86` reads entry 0, which is 128. -/
theorem test_tOut2_example : regsOf (exec .tOut2 (st ref 0x0100 9 86 (9, 9, 9) true 255 1 0#20)) =
    some ⟨0x0100, 9, 86, (9, 9, 128), true, 255, 1⟩ := by decide
theorem test_tInc_v14 : regsOf (step (st ref 0x0100 244 255 (9, 9, 9) true 255 1 0#20)) =
    some ⟨0x0100, 244, 256, (125, 240, 21), true, 0, 244⟩ := by decide

/-- The script of P1, its numbers decimal (R82): the words 95_test_vectors lists, with `CLK 2`. -/
theorem test_script_text : Script.assembleText
    [['R', 'S', 'T'], ['W', 'R', 'S', 'A', 'M', 'P', ' ', '1', '0', '2', '3', ' ', ';', 'x'], [], ['C', 'L', 'K', ' ', '2']] =
    some [0x80000#20, 0x503FF#20, 0x00000#20, 0x00000#20] := by decide
/-- A hexadecimal number, and an operand out of its range. -/
theorem test_script_number :
    Script.assembleText [['W', 'R', 'F', 'R', 'E', 'Q', ' ', '0', 'x', '7', '8', '0', '0']] = some [0x47800#20] ∧
    Script.assembleText [['W', 'R', 'S', 'A', 'M', 'P', ' ', '1', '0', '2', '4']] = none := by decide

/-! ## Witnesses: states and operands that meet the hypotheses of each statement -/

/-- Idle with nothing published; with 1 Hz published; a due tick below, at the end of, and past the table. -/
def idle (w : StimulusWord) : State := st ref 0 255 0 (128, 128, 128) false 0 0 w
def ready (w : StimulusWord) : State := st ref 0x0100 255 0 (128, 128, 128) false 0 0 w
def due (c : Config) (f i : Nat) (w : StimulusWord) : State := st c f 244 i (9, 9, 9) true 255 1 w

theorem witness_ResetOverridesTheCycle : (idle 0x80000#20).currentWord.getLsbD 19 = true := by decide
theorem witness_StepRunsTheTwoDecodedOperations : ∃ s e h : State, s.currentWord.getLsbD 19 = false ∧
    exec (decodeCW s.controlWord) s = .next e ∧ exec (decodeSW s.currentWord) s = .next h :=
  ⟨idle 0x40100#20, _, _, by decide, rfl, rfl⟩
theorem witness_HostAndEngineWriteDisjointRegisters :
    (∃ i s t, exec i s = .next t ∧ (rowOf i).format = .sw ∧ i ≠ .reset) ∧
    (∃ i s t, exec i s = .next t ∧ (rowOf i).format = .cw) :=
  ⟨⟨.wrfreq 0x0100#16, idle 0#20, _, rfl, rfl, by decide⟩, ⟨.start, ready 0#20, _, rfl, rfl⟩⟩
theorem witness_OperationsKeepRomAndParameters : ∃ i s t, exec i s = .next t := ⟨.reset, due ref 0x0100 0 0#20, _, rfl⟩
theorem witness_UnselectedOperationsAssignNothing :
    (∃ i s, (rowOf i).format = .cw ∧ i.isSubOperation = false ∧ decodeCW (State.controlWord s) ≠ i) ∧
    (∃ i s, (rowOf i).format = .cw ∧ i.isSubOperation = true ∧ i ∉ tickSchedule s.config.wrapMode (State.controlWord s)) :=
  ⟨⟨.start, idle 0#20, rfl, rfl, by decide⟩, ⟨.tOut0, due ref 0x0100 256 0#20, rfl, rfl, by decide⟩⟩
theorem witness_NopLeavesTheCycleToTheEngine : ∃ s e, State.currentWord s &&& 0xC0000#20 = 0x00000#20 ∧
    exec (decodeCW s.controlWord) s = .next e := ⟨ready 0x3FFFF#20, _, by decide, rfl⟩
/-- Each operation, each way to publish, the old frequency zero and not. -/
theorem witness_SameCyclePublishReadsOldWritesNew :
    (∃ s t : State, decodeSW s.currentWord = .wrfreq 0#16 ∧ decodeCW s.controlWord = .start ∧ step s = .next t ∧
      s.freq ≠ 0x0000#16) ∧
    (∃ (s t : State) (v : Sample), decodeSW s.currentWord = .wrsamp v ∧ decodeCW s.controlWord = .tick ∧ step s = .next t ∧
      s.freq ≠ 0x0000#16) ∧
    (∃ s t : State, decodeSW s.currentWord = .wrfreq 0x0100#16 ∧ decodeCW s.controlWord = .tick ∧ step s = .next t ∧
      s.freq = 0x0000#16) :=
  ⟨⟨ready 0x40000#20, _, by decide, by decide, rfl, by decide⟩,
   ⟨due ref 0x0100 0 0x5FFFF#20, _, 1023#10, by decide, by decide, rfl, by decide⟩,
   ⟨due ref 0 0 0x40100#20, _, by decide, by decide, rfl, by decide⟩⟩
/-- The clause about the next operation: 1 Hz published beside a halting tick, the next operation is `START`; 0 published beside
a tick with `PRESCALE = 1` and the period 1, the next operation is `TICK`; and a cycle between them that publishes nothing. -/
theorem witness_SameCyclePublish_next :
    (∃ t u v : State, step (due ref 0 0 0x40100#20) = .next t ∧ t.NoPublishFor 0 ∧
      Host.Core.run Sys2Proof.core 0 t = .next u ∧ decodeCW u.controlWord = .start ∧
      exec (decodeCW u.controlWord) u = .next v) ∧
    (∃ t u v : State, step (st tiny 0x7800 1 0 (9, 9, 9) true 0 1 0x40000#20) = .next t ∧ t.NoPublishFor 0 ∧
      Host.Core.run Sys2Proof.core 0 t = .next u ∧ decodeCW u.controlWord = .tick ∧
      exec (decodeCW u.controlWord) u = .next v) ∧
    (∃ t u : State, step { due ref 0x0100 0 0x40000#20 with stimulus := [0x40000#20, 0x6ABCD#20] } = .next t ∧
      t.NoPublishFor 1 ∧ Host.Core.run Sys2Proof.core 1 t = .next u) :=
  ⟨⟨_, _, _, rfl, ⟨Nat.zero_le _, nofun⟩, rfl, by decide, rfl⟩, ⟨_, _, _, rfl, ⟨Nat.zero_le _, nofun⟩, rfl, by decide, rfl⟩,
   ⟨_, _, rfl, ⟨Nat.le_refl 1, fun w hw => by cases List.mem_singleton.1 hw; decide⟩, rfl⟩⟩
/-- A publish, a publish of zero, a reserved write and a `NOP` in an idle block. -/
theorem witness_HoldKeepsTheIdleState :
    (∃ s, State.run s = false ∧ s.freq = 0x0000#16 ∧ s.currentWord.getLsbD 19 = false ∧
      decodeSW s.currentWord = .wrfreq 0x0100#16) ∧
    (∃ s, State.run s = false ∧ s.freq = 0x0000#16 ∧ s.currentWord.getLsbD 19 = false ∧
      decodeSW s.currentWord = .wrsamp 0#10) ∧
    (∃ s, State.run s = false ∧ s.freq = 0x0000#16 ∧ s.currentWord.getLsbD 19 = false ∧
      decodeSW s.currentWord = .wrrsv3 0xFFFF#16) ∧
    (∃ s, State.run s = false ∧ s.freq = 0x0000#16 ∧ s.currentWord &&& 0xC0000#20 = 0x00000#20) :=
  ⟨⟨idle 0x40100#20, by decide⟩, ⟨idle 0x50000#20, by decide⟩, ⟨idle 0x7FFFF#20, by decide⟩,
   ⟨idle 0x3FFFF#20, by decide⟩⟩
theorem witness_StartLoadsThePeriodAndRuns : ∃ s, State.freq s ≠ 0x0000#16 ∧ s.run = false := ⟨ready 0#20, by decide⟩
/-- The last count below the wrap. -/
theorem witness_PscincCountsThePrescaler :
    (∃ s, State.run s = true ∧ s.psc + 1 ≠ s.config.prescale ∧ s.psc + 1 < 2 ^ s.config.pscWidth ∧
      s.psc < s.config.prescale) ∧
    (∃ s : State, s.config.prescale = 1 ∧ s.psc < 2 ^ s.config.pscWidth) :=
  ⟨⟨st ref 0x0100 244 0 (9, 9, 9) true 254 244 0#20, by decide⟩, ⟨st tiny 1 1 0 (9, 9, 9) true 0 1 0#20, by decide⟩⟩
/-- `PRESCALE = 3` has a two-bit `PSC`; a state before the first reset may hold 3 in it. -/
theorem witness_PscincBeyondTheWidthHoldsSomeValue : ∃ s, State.run s = true ∧ s.psc + 1 ≠ s.config.prescale ∧
    2 ^ s.config.pscWidth ≤ s.psc + 1 :=
  ⟨st { Config.reference with prescale := 3 } 0x0100 244 0 (9, 9, 9) true 3 244 0#20, by decide⟩
theorem witness_CntdecCountsDown : ∃ s, State.run s = true ∧ s.psc + 1 = s.config.prescale ∧ 2 ≤ s.cnt :=
  ⟨st ref 0x0100 244 0 (9, 9, 9) true 255 2 0#20, by decide⟩
/-- With `PRESCALE = 1` and the period 1 the words of two cycles are enough: about to `START`, and about to `TICK`. -/
def starting : State := { st tiny 0x7800 255 0 (9, 9, 9) false 0 0 0#20 with stimulus := [0x40000#20, 0x00000#20] }
def ticking : State := { st tiny 0x7800 1 0 (9, 9, 9) true 0 1 0#20 with stimulus := [0x40000#20, 0x00000#20] }
theorem pconv_tiny (h : (0x7800#16 : Frequency) ≠ 0x0000#16) : pconv tiny 0x7800#16 h = 1 := by revert h; decide
/-- Neither listed word is a reset. -/
theorem no_reset : 1 * 1 + 1 ≤ [0x40000#20, 0x00000#20].length ∧
    ∀ w ∈ [0x40000#20, 0x00000#20].take (1 * 1 + 1), w.getLsbD 19 = false := by simp
theorem witness_TicksAreAPeriodApart :
    (∃ (s : State) (h : s.freq ≠ 0x0000#16) (n : Nat), s.config.wellFormed = true ∧ s.run = false ∧
      s.NoResetFor (pconv s.config s.freq h * s.config.prescale + 1) ∧ 1 ≤ n ∧
      n ≤ pconv s.config s.freq h * s.config.prescale) ∧
    (∃ (s : State) (h : s.freq ≠ 0x0000#16) (n : Nat), s.config.wellFormed = true ∧ s.tickRequest = true ∧
      s.NoResetFor (pconv s.config s.freq h * s.config.prescale + 1) ∧ 1 ≤ n ∧
      n ≤ pconv s.config s.freq h * s.config.prescale) := by
  have h1 : starting.freq ≠ 0x0000#16 := by decide
  have h2 : ticking.freq ≠ 0x0000#16 := by decide
  have hs : ∀ h, pconv starting.config starting.freq h = 1 := pconv_tiny
  have ht : ∀ h, pconv ticking.config ticking.freq h = 1 := pconv_tiny
  refine ⟨⟨starting, h1, 1, by decide, by decide, ?_, by decide, ?_⟩, ⟨ticking, h2, 1, by decide, by decide, ?_, by decide, ?_⟩⟩
  · rw [hs]; exact no_reset
  · rw [hs]; exact Nat.le_refl 1
  · rw [ht]; exact no_reset
  · rw [ht]; exact Nat.le_refl 1
/-- The last index below the table length. -/
theorem witness_TickLoadsAndSteps : ∃ s, State.freq s ≠ 0x0000#16 ∧ s.run = true ∧ s.psc + 1 = s.config.prescale ∧
    s.cnt ≤ 1 ∧ s.index.toNat < 256 := ⟨due ref 0x0100 255 0#20, by decide⟩
theorem witness_TickHaltsOnFrequencyZero : ∃ s, State.freq s = 0x0000#16 ∧ s.run = true ∧ s.psc + 1 = s.config.prescale ∧
    s.cnt ≤ 1 ∧ s.index.toNat < 256 := ⟨due ref 0 255 0#20, by decide⟩
theorem witness_DeadTickWritesNoDuty :
    (∃ s, State.freq s ≠ 0x0000#16 ∧ s.config.wrapMode = .dead ∧ s.run = true ∧ s.psc + 1 = s.config.prescale ∧
      s.cnt ≤ 1 ∧ 256 ≤ s.index.toNat) ∧
    (∃ s, State.freq s = 0x0000#16 ∧ s.config.wrapMode = .dead ∧ s.run = true ∧ s.psc + 1 = s.config.prescale ∧
      s.cnt ≤ 1 ∧ 256 ≤ s.index.toNat) := ⟨⟨due ref 0x0100 256 0#20, by decide⟩, ⟨due ref 0 256 0#20, by decide⟩⟩
theorem witness_ContinuedTickOutputsEntryZero :
    (∃ s, State.freq s ≠ 0x0000#16 ∧ s.config.wrapMode = .cont ∧ s.run = true ∧ s.psc + 1 = s.config.prescale ∧
      s.cnt ≤ 1 ∧ 256 ≤ s.index.toNat) ∧
    (∃ s, State.freq s = 0x0000#16 ∧ s.config.wrapMode = .cont ∧ s.run = true ∧ s.psc + 1 = s.config.prescale ∧
      s.cnt ≤ 1 ∧ 256 ≤ s.index.toNat) := ⟨⟨due cont 0x0100 256 0#20, by decide⟩, ⟨due cont 0 256 0#20, by decide⟩⟩
theorem witness_TickIsTheSequenceOfItsSubOperations : ∃ s, decodeCW (State.controlWord s) = .tick :=
  ⟨due ref 0x0100 256 0#20, by decide⟩
theorem witness_LatchWritesNoRegister : ∃ s, State.tickRequest s = true := ⟨due ref 0x0100 0 0#20, by decide⟩
theorem witness_PloadLoadsTheTimer : ∃ s, State.freq s ≠ 0x0000#16 ∧ s.tickRequest = true :=
  ⟨due ref 0x0100 0 0#20, by decide⟩
theorem witness_HaltDisablesTheTimer : ∃ s, State.tickRequest s = true ∧ s.freq = 0x0000#16 :=
  ⟨due ref 0 0 0#20, by decide⟩
theorem witness_WrapResetsTheIndex :
    (∃ s, State.tickRequest s = true ∧ 256 ≤ s.index.toNat ∧ s.config.wrapMode = .dead) ∧
    (∃ s, State.tickRequest s = true ∧ 256 ≤ s.index.toNat ∧ s.config.wrapMode = .cont) :=
  ⟨⟨due ref 0x0100 256 0#20, by decide⟩, ⟨due cont 0x0100 256 0#20, by decide⟩⟩
/-- Each way to give `i` and each way to give `p`. -/
theorem witness_OutputsWriteTheirOwnDutyRegister :
    (∃ (s : State) (i p : Nat), s.tickRequest = true ∧ (s.index.toNat < 256 ∧ i = s.index.toNat) ∧
      ∃ h : s.freq ≠ 0x0000#16, p = pconv s.config s.freq h) ∧
    (∃ (s : State) (i p : Nat), s.tickRequest = true ∧
      (s.config.wrapMode = .cont ∧ 256 ≤ s.index.toNat ∧ i = 0) ∧ s.freq = 0x0000#16 ∧ p = s.period) :=
  ⟨⟨due ref 0x0100 255 0#20, 255, _, by decide, by decide, by decide, rfl⟩,
   ⟨due cont 0 256 0#20, 0, 244, by decide⟩⟩
theorem witness_IncAdvancesTheIndexByOne :
    (∃ (s : State) (i : Nat), s.tickRequest = true ∧ s.index.toNat < 256 ∧ i = s.index.toNat) ∧
    (∃ (s : State) (i : Nat), s.tickRequest = true ∧ s.config.wrapMode = .cont ∧ 256 ≤ s.index.toNat ∧ i = 0) :=
  ⟨⟨due ref 0x0100 255 0#20, 255, by decide⟩, ⟨due cont 0x0100 256 0#20, 0, by decide⟩⟩
theorem witness_DutyRegistersChangeTogether :
    (∃ s t : State, s.currentWord.getLsbD 19 = false ∧ step s = .next t ∧
      decodeCW s.controlWord = .tick ∧ (s.index.toNat < 256 ∨ s.config.wrapMode = .cont)) ∧
    (∃ s t : State, s.currentWord.getLsbD 19 = false ∧ step s = .next t ∧
      ¬(decodeCW s.controlWord = .tick ∧ (s.index.toNat < 256 ∨ s.config.wrapMode = .cont))) :=
  ⟨⟨due ref 0x0100 255 0#20, _, by decide, rfl, by decide, by decide⟩,
   ⟨due ref 0x0100 256 0#20, _, by decide, rfl, by decide⟩⟩
theorem witness_RunChangesOnlyByStartHaltAndReset :
    (∃ s t : State, step s = .next t ∧ s.currentWord.getLsbD 19 = true) ∧
    (∃ s t : State, step s = .next t ∧ s.currentWord.getLsbD 19 = false ∧ s.run = false) ∧
    (∃ s t : State, step s = .next t ∧ s.currentWord.getLsbD 19 = false ∧ s.run = true) :=
  ⟨⟨due ref 0 0 0x80000#20, _, rfl, by decide⟩, ⟨ready 0#20, _, rfl, by decide⟩, ⟨due ref 0 0 0#20, _, rfl, by decide⟩⟩
theorem witness_PeriodIsWrittenOnlyByStartAndTick :
    (∃ s t : State, s.currentWord.getLsbD 19 = false ∧ step s = .next t ∧ s.freq ≠ 0x0000#16 ∧
      decodeCW s.controlWord = .tick) ∧
    (∃ s t : State, s.currentWord.getLsbD 19 = false ∧ step s = .next t ∧ decodeCW s.controlWord ≠ .start ∧
      s.freq = 0x0000#16) :=
  ⟨⟨due ref 0x0100 0 0#20, _, by decide, rfl, by decide⟩, ⟨due ref 0 0 0#20, _, by decide, rfl, by decide⟩⟩
theorem witness_IndexReaches256OnlyAfterEntry255 :
    (∃ s t : State, s.currentWord.getLsbD 19 = false ∧ step s = .next t ∧ t.index = 256#9) :=
  ⟨due ref 0x0100 255 0#20, _, by decide, rfl, by decide⟩
theorem witness_FrequencyIsNotReadBetweenTicks : ∃ s t : State, s.run = true ∧ decodeCW s.controlWord ≠ .tick ∧
    exec (decodeCW s.controlWord) s = .next t :=
  ⟨st ref 0x0100 244 0 (9, 9, 9) true 255 2 0#20, _, by decide, by decide, rfl⟩
theorem witness_FrequencyNeverAltersTheLookups : ∃ (s t u : State) (f : Frequency), exec .tick s = .next t ∧
    exec .tick { s with freq := f } = .next u ∧ s.config.dutyScale = false ∧ u.index ≠ s.index :=
  ⟨due ref 0x0100 255 0#20, _, _, 0x0000#16, rfl, rfl, by decide, by decide⟩
theorem witness_StepKeepsTheInvariants : ∃ s t : State, s.Inv ∧ step s = .next t :=
  ⟨due ref 0x0100 256 0#20, _, ⟨by decide, by decide, by decide, by decide, by decide, by decide, by decide⟩, rfl⟩
theorem witness_WellStartedRunsMeetTheInvariants :
    ∃ s t u : State, s.WellStarted ∧ Host.Core.run Sys2Proof.core 1 s = .next t ∧ step t = .next u ∧ u.index = 0#9 :=
  ⟨{ due ref 0x0100 400 0#20 with stimulus := [0x80000#20, 0x00000#20] }, _, _, ⟨by decide, by decide⟩, rfl, rfl, by decide⟩
theorem witness_StepKeepsTheRegisterWidths : ∃ s t : State, s.InWidth ∧ step s = .next t :=
  ⟨due ref 0x0100 400 0#20, _, ⟨by decide, by decide, by decide, by decide⟩, rfl⟩
theorem witness_PconvHasItsTwoForms : ∃ (c : Config) (f : Frequency), f ≠ 0x0000#16 ∧ c.wellFormed = true :=
  ⟨tiny, 1#16, by decide⟩
theorem witness_PconvIsInRangeAndNonIncreasing : ∃ (c : Config) (f g : Frequency), c.wellFormed = true ∧
    f ≠ 0x0000#16 ∧ g ≠ 0x0000#16 ∧ f.toNat ≤ g.toNat := ⟨ref, 1#16, 0xFFFF#16, by decide⟩
theorem witness_DscaleRoundsOnceAndIsMonotone : ref.dutyScale = false ∧ scaled.dutyScale = true := by decide
theorem witness_FscaleIsExactAtTheEndsAndIncreasing : ∃ v w : Sample, v.toNat + 1 = w.toNat ∧ v.toNat < w.toNat ∧
    fscale v = 0x0000#16 := ⟨0#10, 1#10, by decide⟩
theorem witness_DecodeReadsBackWhatEncodeWrites :
    (∃ i : Instr, i.isSubOperation = false) ∧ (∃ i : Instr, i.isSubOperation = true) :=
  ⟨⟨.wrsamp 1023#10, rfl⟩, ⟨.tHalt, rfl⟩⟩
theorem witness_PlacedControlWordIsExecuted :
    (∃ (s e : State) (cw : ControlWord), 1 ≤ s.config.prescale ∧ s.config.prescale ≠ 1 ∧
      exec (decodeCW cw) (s.withFetchWord 8 cw.toNat) = .next e) ∧
    (∃ (s : State) (cw : ControlWord), 1 ≤ s.config.prescale ∧ cw.getLsbD 2 = true ∧ s.config.prescale = 1) :=
  ⟨⟨State.reset, _, 0b11111#5, by decide, by decide, rfl⟩,
   ⟨st tiny 0 255 0 (9, 9, 9) false 0 0 0#20, 0b10110#5, by decide⟩⟩
/-- The operations the reset state runs when their table words are placed (R76). -/
theorem test_placed_words_run :
    regsOf (step (State.reset.withFetchWord 8 0b01000)) = some ⟨1, 255, 0, (128, 128, 128), true, 0, 255⟩ ∧
    regsOf (step (State.reset.withFetchWord 8 0b11110)) = some ⟨1, 255, 1, (128, 239, 19), true, 0, 255⟩ ∧
    regsOf (step (State.reset.withFetchWord 24 0x47800)) = some ⟨0x7800, 255, 0, (128, 128, 128), false, 0, 0⟩ := by decide

/-- States whose index walks the table as the ticks do. -/
def walk (c : Config) (x : Nat → Nat) (n : Nat) : State := due c 0x0100 (x n) 0#20

/-- The walk of each wrap mode meets the hypotheses of the statement about successive ticks. -/
theorem walk_ticks (c : Config) (hc : c.prescale = 256) (x : Nat → Nat) (hx : ∀ n, x n ≤ 256)
    (hn : ∀ n, x (n + 1) = if x n < 256 then x n + 1 else if c.wrapMode = .cont then 1 else 0) (n : Nat) :
    (walk c x n).tickRequest = true ∧ ∃ t, exec .tick (walk c x n) = .next t ∧
      (walk c x (n + 1)).index = t.index ∧ (walk c x (n + 1)).config = t.config := by
  have hr : (walk c x n).tickRequest = true := (tickRequest_iff _).2 ⟨rfl, hc.symm, Nat.le_refl 1⟩
  have hi : (walk c x n).index.toNat = x n := Nat.mod_eq_of_lt (Nat.lt_of_le_of_lt (hx n) (by decide))
  refine ⟨hr, (walk c x n).tickState, congrArg _ (if_pos hr), ?_, ?_⟩
  · show BitVec.ofNat 9 (x (n + 1)) = _
    have hm : (walk c x n).config.wrapMode = c.wrapMode := rfl
    rw [hn, State.tickState_eq]
    by_cases h : x n < 256
    · simp [State.reachesOutput, State.iend, State.tickIndex, hi, h, Nat.not_le.2 h]
    · cases hw : c.wrapMode <;> simp [State.reachesOutput, State.iend, State.tickIndex, hi, h, Nat.not_lt.1 h, hm, hw]
  · rw [State.tickState_eq]; split <;> simp <;> rfl

theorem witness_SuccessiveTicksWalkTheTable :
    (∃ u : Nat → State, (u 0).index = 0#9 ∧ (u 0).config.wrapMode = .dead ∧ ∀ n, (u n).tickRequest = true ∧
      ∃ t, exec .tick (u n) = .next t ∧ (u (n + 1)).index = t.index ∧ (u (n + 1)).config = t.config) ∧
    (∃ u : Nat → State, (u 0).index = 0#9 ∧ (u 0).config.wrapMode = .cont ∧ ∀ n, (u n).tickRequest = true ∧
      ∃ t, exec .tick (u n) = .next t ∧ (u (n + 1)).index = t.index ∧ (u (n + 1)).config = t.config) := by
  refine ⟨⟨walk ref (fun n => n % 257), rfl, rfl, walk_ticks ref rfl _ (fun n => ?_) (fun n => ?_)⟩,
    ⟨walk cont (fun n => if n = 0 then 0 else (n - 1) % 256 + 1), rfl, rfl, walk_ticks cont rfl _ (fun n => ?_) (fun n => ?_)⟩⟩
  · have := Nat.mod_lt n (show 257 > 0 by decide)
    show n % 257 ≤ 256
    omega
  · show (n + 1) % 257 = if n % 257 < 256 then n % 257 + 1 else 0
    split <;> omega
  · show (if n = 0 then 0 else (n - 1) % 256 + 1) ≤ 256
    split <;> omega
  · show (if n + 1 = 0 then 0 else (n + 1 - 1) % 256 + 1) =
      if (if n = 0 then 0 else (n - 1) % 256 + 1) < 256 then (if n = 0 then 0 else (n - 1) % 256 + 1) + 1 else 1
    by_cases h : n = 0
    · subst h; rfl
    · simp only [h, if_false, Nat.add_sub_cancel, Nat.succ_ne_zero]
      split <;> omega

end Sys2Proof.Tests
end

section
/-! Runs that start with `RESET` (10_state R33, 40_cycle_step R96): what an ENGINE cycle can do, said once, and from it the
invariants (a) to (e) and the only way to `INDEX = 256`. -/

namespace Sys2Proof.Machine

/-! ## Bounds of the parameters and of a tick's locals -/

theorem prescale_pos_of_wellFormed {c : Config} (hc : c.wellFormed = true) : 0 < c.prescale := by
  simp only [Config.wellFormed, Bool.and_eq_true, decide_eq_true_eq] at hc
  omega

theorem one_le_pmax_of_wellFormed {c : Config} (hc : c.wellFormed = true) : 1 ≤ c.pmax := by
  simp only [Config.wellFormed, Bool.and_eq_true, decide_eq_true_eq] at hc
  have hpw : c.pw ≠ 0 := by omega
  have := Nat.one_lt_two_pow hpw
  unfold Config.pmax
  omega

/-- `PCONV` is a valid `PERIOD` (R116). -/
theorem pconv_bounds {c : Config} (hc : c.wellFormed = true) (f : Frequency) (h : f ≠ 0x0000#16) :
    1 ≤ pconv c f h ∧ pconv c f h ≤ c.pmax :=
  clamp_bounds (one_le_pmax_of_wellFormed hc)

/-- Below `PRESCALE - 1` the sum fits `PSC`, so counting draws no free value (R132). -/
theorem pscNext_eq_succ {s : State} (h : s.psc < s.config.prescale) (hne : s.psc + 1 ≠ s.config.prescale) :
    s.pscNext = s.psc + 1 := by
  have := prescale_le_two_pow_pscWidth s.config
  exact if_pos (by omega)

namespace State

variable (s : State)

theorem tickIndex_lt : s.tickIndex < 256 := by
  unfold tickIndex
  split <;> omega

@[simp] theorem tickState_config : s.tickState.config = s.config := by rw [tickState_eq]; split <;> simp
@[simp] theorem tickState_period : s.tickState.period = s.tickPeriod := by rw [tickState_eq]; split <;> simp
@[simp] theorem tickState_psc : s.tickState.psc = 0 := by rw [tickState_eq]; split <;> simp
@[simp] theorem tickState_cnt : s.tickState.cnt = if s.freq = 0x0000#16 then 0 else s.tickPeriod := by
  rw [tickState_eq]; split <;> simp
@[simp] theorem tickState_run : s.tickState.run = if s.freq = 0x0000#16 then false else s.run := by
  rw [tickState_eq]; split <;> simp

/-- A tick leaves `INDEX` one above the local index, or at 0 when it is the dead tick (R149, R154). -/
theorem tickState_index_toNat :
    s.tickState.index.toNat = if s.reachesOutput then s.tickIndex + 1 else 0 := by
  have := s.tickIndex_lt
  rw [tickState_eq]
  split
  · rw [tickOutput_index, BitVec.toNat_ofNat, Nat.mod_eq_of_lt (by omega)]
  · rfl

theorem tickState_index_le : s.tickState.index.toNat ≤ 256 := by
  have := s.tickIndex_lt
  rw [tickState_index_toNat]
  split <;> omega

/-- A tick that leaves `INDEX` at 256 found it at 255: the wrap's local index is 0, in both wrap modes (R33 (b)). -/
theorem index_eq_255_of_tickState_index {s : State} (h : s.tickState.index = 256#9) : s.index = 255#9 := by
  have h256 : s.tickState.index.toNat = 256 := congrArg BitVec.toNat h
  rw [tickState_index_toNat] at h256
  apply BitVec.eq_of_toNat_eq
  show s.index.toNat = 255
  unfold tickIndex at h256
  split at h256
  · split at h256 <;> omega
  · omega

/-- The period a tick uses is a valid `PERIOD`, computed or retained (R33 (a)). -/
theorem Inv.tickPeriod_bounds {s : State} (hs : s.Inv) : 1 ≤ s.tickPeriod ∧ s.tickPeriod ≤ s.config.pmax := by
  by_cases hf : s.freq = 0x0000#16
  · rw [tickPeriod_of_eq s hf]
    exact ⟨hs.period_pos, hs.period_le⟩
  · rw [tickPeriod_of_ne s hf]
    exact pconv_bounds hs.config_wellFormed s.freq hf

end State

/-! ## What an ENGINE cycle can do -/

/-- The internal operation `i` that the state `s` selects, its condition, and the state it leads to (R93, R94, R131 to R133,
R145). -/
inductive EngineCycle (s : State) : Instr → State → Prop
  | hold (idle : s.run = false) (zero : s.freq = 0x0000#16) : EngineCycle s .hold s
  | start (idle : s.run = false) (nonzero : s.freq ≠ 0x0000#16) :
      EngineCycle s .start (s.loadTimer (pconv s.config s.freq nonzero)).setRunning
  | pscinc (running : s.run = true) (below : s.psc + 1 ≠ s.config.prescale) :
      EngineCycle s .pscinc (s.setPsc s.pscNext)
  | cntdec (running : s.run = true) (wrap : s.psc + 1 = s.config.prescale) (counting : 2 ≤ s.cnt) :
      EngineCycle s .cntdec (s.setCnt (s.cnt - 1))
  | tick (running : s.run = true) (wrap : s.psc + 1 = s.config.prescale) (expired : s.cnt ≤ 1) :
      EngineCycle s .tick s.tickState

/-- The operation the control word decodes to executes as `EngineCycle` lists (R93). -/
theorem engineCycle_of_exec {s e : State} (h : exec (decodeCW s.controlWord) s = .next e) :
    EngineCycle s (decodeCW s.controlWord) e := by
  cases hrun : s.run
  case false =>
    by_cases hf : s.freq = 0x0000#16
    · rw [show decodeCW s.controlWord = .hold by simp [decodeCW_controlWord, hrun, hf]] at h ⊢
      cases h
      exact .hold hrun hf
    · rw [show decodeCW s.controlWord = .start by simp [decodeCW_controlWord, hrun, hf]] at h ⊢
      obtain rfl : (s.loadTimer (pconv s.config s.freq hf)).setRunning = e := by simpa [exec, execStart, hrun, hf] using h
      exact .start hrun hf
  case true =>
    by_cases hp : s.psc + 1 = s.config.prescale
    · by_cases hc : s.cnt ≤ 1
      · rw [show decodeCW s.controlWord = .tick by simp [decodeCW_controlWord, hrun, hp, hc]] at h ⊢
        obtain rfl : s.tickState = e := by simpa [exec, execTick, tickRequest_iff, hrun, hp, hc] using h
        exact .tick hrun hp hc
      · have hc2 : 2 ≤ s.cnt := by omega
        rw [show decodeCW s.controlWord = .cntdec by simp [decodeCW_controlWord, hrun, hp, hc]] at h ⊢
        obtain rfl : s.setCnt (s.cnt - 1) = e := by simpa [exec, execCntdec, hrun, hp, hc2] using h
        exact .cntdec hrun hp hc2
    · rw [show decodeCW s.controlWord = .pscinc by simp [decodeCW_controlWord, hrun, hp]] at h ⊢
      obtain rfl : s.setPsc s.pscNext = e := by simpa [exec, execPscinc, hrun, hp] using h
      exact .pscinc hrun hp

/-- A step is a reset, or an `EngineCycle` whose `FREQ` the host command may replace (R90 to R92). -/
theorem step_cases {s t : State} (h : step s = .next t) :
    (s.currentWord.getLsbD 19 = true ∧ t = s.toReset.nextCycle) ∨
    (s.currentWord.getLsbD 19 = false ∧
      ∃ e host, EngineCycle s (decodeCW s.controlWord) e ∧ t = (e.merge host).nextCycle) := by
  obtain ⟨hrst, a, ha, rfl⟩ | ⟨hrst, e, host, he, -, rfl⟩ := step_eq_next_iff.1 h
  · cases ha
    exact .inl ⟨hrst, rfl⟩
  · exact .inr ⟨hrst, e, host, engineCycle_of_exec he, rfl⟩

/-! ## The invariants of R33 -/

/-- `FREQ` and the model's input side are in no invariant. -/
theorem State.Inv.merge_nextCycle {e : State} (he : e.Inv) (host : State) : (e.merge host).nextCycle.Inv where
  config_wellFormed := he.config_wellFormed
  period_pos := he.period_pos
  period_le := he.period_le
  index_le := he.index_le
  running := he.running
  idle := he.idle
  psc_lt := he.psc_lt

/-- `RESET` establishes the invariants, whatever the registers held (R34). -/
theorem inv_toReset_nextCycle {s : State} (hc : s.config.wellFormed = true) : s.toReset.nextCycle.Inv where
  config_wellFormed := hc
  period_pos := one_le_pmax_of_wellFormed hc
  period_le := Nat.le_refl _
  index_le := Nat.zero_le _
  running := fun h => by simp at h
  idle := fun _ => ⟨rfl, rfl⟩
  psc_lt := prescale_pos_of_wellFormed hc

/-- A tick keeps the invariants: it loads a valid period or halts the timer, and leaves `INDEX` within the table (R145). -/
theorem State.Inv.tickState {s : State} (hs : s.Inv) (running : s.run = true) : s.tickState.Inv := by
  obtain ⟨hpos, hle⟩ := hs.tickPeriod_bounds
  refine ⟨?config, ?pos, ?le, s.tickState_index_le, ?running, ?idle, ?psc⟩
  case config => simpa using hs.config_wellFormed
  case pos => simpa using hpos
  case le => simpa using hle
  case psc => simpa using prescale_pos_of_wellFormed hs.config_wellFormed
  case running => by_cases hf : s.freq = 0x0000#16 <;> simp [hf, hpos]
  case idle => by_cases hf : s.freq = 0x0000#16 <;> simp [hf, running]

/-- Every internal operation keeps the invariants in the states that select it. -/
theorem EngineCycle.inv {s e : State} {i : Instr} (h : EngineCycle s i e) (hs : s.Inv) : e.Inv := by
  have hprescale := prescale_pos_of_wellFormed hs.config_wellFormed
  cases h with
  | hold => exact hs
  | start idle nonzero =>
    obtain ⟨hpos, hle⟩ := pconv_bounds hs.config_wellFormed s.freq nonzero
    exact ⟨hs.config_wellFormed, hpos, hle, hs.index_le, fun _ => ⟨hpos, Nat.le_refl _⟩,
      fun h => by simp at h, hprescale⟩
  | pscinc running below =>
    have hpsc := hs.psc_lt
    have hnext : s.pscNext < s.config.prescale := by rw [pscNext_eq_succ hpsc below]; omega
    exact ⟨hs.config_wellFormed, hs.period_pos, hs.period_le, hs.index_le, hs.running,
      fun h => absurd (running.symm.trans h) (by decide), hnext⟩
  | cntdec running wrap counting =>
    have hcnt := hs.running running
    have hnext : 1 ≤ s.cnt - 1 ∧ s.cnt - 1 ≤ s.period := by omega
    exact ⟨hs.config_wellFormed, hs.period_pos, hs.period_le, hs.index_le, fun _ => hnext,
      fun h => absurd (running.symm.trans h) (by decide), hprescale⟩
  | tick running => exact hs.tickState running

/-- Every step keeps the invariants, reset or not (R33). -/
theorem State.Inv.step {s t : State} (hs : s.Inv) (h : step s = .next t) : t.Inv := by
  obtain ⟨-, rfl⟩ | ⟨-, e, host, he, rfl⟩ := step_cases h
  · exact inv_toReset_nextCycle hs.config_wellFormed
  · exact (he.inv hs).merge_nextCycle host

/-- The first cycle of a well-started run is a `RESET` and nothing else (R96). -/
theorem State.WellStarted.step_inv {s t : State} (hs : s.WellStarted) (h : Machine.step s = .next t) : t.Inv := by
  obtain ⟨hc, hword⟩ := hs
  obtain ⟨-, rfl⟩ | ⟨hno, -⟩ := step_cases h
  · exact inv_toReset_nextCycle hc
  · exact absurd (hword.symm.trans hno) (by decide)

/-- What every step keeps holds along the whole run. -/
theorem always_of_step {P : State → Prop} (hstep : ∀ s t, P s → step s = .next t → P t) {s : State} (hs : P s) :
    Always P s := by
  intro n
  induction n generalizing s with
  | zero =>
    intro t h
    cases h
    exact hs
  | succ n ih =>
    intro t h
    obtain ⟨u, hu, ht⟩ := run_succ_eq_next.1 h
    exact ih (hstep s u hs hu) t ht

/-! ## The way to `INDEX = 256` -/

/-- Only a tick writes `INDEX`, so 256 after the cycle was there before it, or the tick output entry 255 (R33 (b)). -/
theorem EngineCycle.index_eq_256 {s e : State} {i : Instr} (h : EngineCycle s i e) (h256 : e.index = 256#9) :
    (i = .tick ∧ s.index = 255#9) ∨ (i ≠ .tick ∧ s.index = 256#9) := by
  cases h with
  | tick => exact .inl ⟨rfl, State.index_eq_255_of_tickState_index h256⟩
  | hold | start | pscinc | cntdec => exact .inr ⟨by decide, h256⟩

/-- R33 (b) for a whole cycle: a reset leaves `INDEX` at 0, and the host command does not reach it. -/
theorem step_index_eq_256 {s t : State} (h : step s = .next t) (h256 : t.index = 256#9) :
    (decodeCW s.controlWord = .tick ∧ s.index = 255#9) ∨ (decodeCW s.controlWord ≠ .tick ∧ s.index = 256#9) := by
  obtain ⟨-, rfl⟩ | ⟨-, e, host, he, rfl⟩ := step_cases h
  · exact absurd h256 (show 0#9 ≠ 256#9 by decide)
  · exact he.index_eq_256 h256

/-- Settles O41: the first cycle, a `RESET`, establishes the invariants and every later one keeps them; the way to
`INDEX = 256` is a property of every step. -/
theorem wellStartedRunsMeetTheInvariants : Obligations.WellStartedRunsMeetTheInvariants := by
  intro s hs n t hrun
  obtain ⟨u, hu, ht⟩ := run_succ_eq_next.1 hrun
  exact ⟨always_of_step (fun _ _ => State.Inv.step) (hs.step_inv hu) n t ht, fun _ => step_index_eq_256⟩

end Sys2Proof.Machine
end

section
/-! A publish in the cycle of a `START` or `TICK` (20_memory R61): the operation reads the pre-edge `FREQ`, and the published
value stays in `FREQ` until the HOST publishes again or resets. -/

namespace Sys2Proof.Machine

/-- A publish is a `WRFREQ` or a `WRSAMP` (00_scope, glossary). -/
theorem published_eq_some_iff {i : Instr} {d : Frequency} :
    published i = some d ↔ i = .wrfreq d ∨ ∃ v, i = .wrsamp v ∧ d = fscale v := by
  cases i <;> simp [published, eq_comm]

/-- A word with `rst = 1` publishes nothing. -/
theorem no_reset_of_published {w : StimulusWord} {d : Frequency} (h : published (decodeSW w) = some d) :
    w.getLsbD 19 = false := by
  refine Bool.eq_false_iff.2 fun hrst => ?_
  rw [(decodeSW_eq_reset_iff w).2 hrst] at h
  cases h

/-- A cycle without reset: the selected operation's state, the `FREQ` of the host command, and the input side moved on
(R92). -/
theorem eq_of_step_of_no_reset {s t : State} (hrst : s.currentWord.getLsbD 19 = false) (h : step s = .next t) :
    ∃ e, exec (decodeCW s.controlWord) s = .next e ∧
      t = { e with freq := (published (decodeSW s.currentWord)).getD s.freq,
                   stimulus := e.stimulus.tail, freeCount := e.freeCount + 1 } := by
  obtain ⟨hreset, -⟩ | ⟨-, e, host, he, hhost, rfl⟩ := step_eq_next_iff.1 h
  · exact absurd (hreset.symm.trans hrst) (by decide)
  · rw [exec_decodeSW s _ hrst] at hhost
    cases hhost
    exact ⟨e, he, rfl⟩

/-! ## What a `START` or a `TICK` does with the frequency it reads -/

@[simp] theorem State.tickState_stimulus (s : State) : s.tickState.stimulus = s.stimulus := by
  rw [tickState_eq]; split <;> simp

namespace EngineCycle

variable {s e : State} {i : Instr}

/-- With a frequency other than 0, `START` and `TICK` load its period and leave the timer running (R131, R147). -/
theorem loads (h : EngineCycle s i e) (hi : i = .start ∨ i = .tick) (hf : s.freq ≠ 0x0000#16) :
    e.period = pconv s.config s.freq hf ∧ e.cnt = pconv s.config s.freq hf ∧ e.run = true := by
  cases h with
  | start => exact ⟨rfl, rfl, rfl⟩
  | tick running => simp [hf, running, s.tickPeriod_of_ne hf]
  | hold | pscinc | cntdec => simp at hi

/-- With frequency 0 only `TICK` can be selected, and it halts the timer and retains the period (R148). -/
theorem halts (h : EngineCycle s i e) (hi : i = .start ∨ i = .tick) (hf : s.freq = 0x0000#16) :
    e.period = s.period ∧ e.cnt = 0 ∧ e.run = false := by
  cases h with
  | start idle nonzero => exact absurd hf nonzero
  | tick => simp [hf, s.tickPeriod_of_eq hf]
  | hold | pscinc | cntdec => simp at hi

/-- No internal operation consumes a word of the HOST (log 2). -/
theorem stimulus_eq (h : EngineCycle s i e) : e.stimulus = s.stimulus := by
  cases h with
  | tick => exact s.tickState_stimulus
  | hold | start | pscinc | cntdec => rfl

end EngineCycle

/-! ## Cycles in which the HOST neither publishes nor resets -/

/-- Such a cycle keeps `FREQ` (R92), and the words after its own still neither publish nor reset. -/
theorem State.NoPublishFor.step {s t : State} {n : Nat} (hs : s.NoPublishFor (n + 1)) (h : Machine.step s = .next t) :
    t.freq = s.freq ∧ t.NoPublishFor n := by
  obtain ⟨hlen, hwords⟩ := hs
  obtain ⟨w, ws, hstim⟩ := List.exists_cons_of_length_pos (Nat.zero_lt_of_lt hlen)
  have hcur : s.currentWord = w := currentWord_cons s w ws hstim
  rw [hstim] at hlen hwords
  obtain ⟨hrst, hpub⟩ := hwords w (by simp)
  obtain ⟨e, he, rfl⟩ := eq_of_step_of_no_reset (hcur ▸ hrst) h
  have htail : e.stimulus.tail = ws := by rw [(engineCycle_of_exec he).stimulus_eq, hstim, List.tail_cons]
  refine ⟨by rw [hcur, hpub]; rfl, ?_, fun w' hw' => hwords w' ?_⟩
  · rw [htail]
    exact Nat.le_of_succ_le_succ hlen
  · rw [htail] at hw'
    exact List.mem_cons_of_mem w hw'

/-- While the HOST neither publishes nor resets, `FREQ` holds its value. -/
theorem State.NoPublishFor.run_freq {s t : State} {n : Nat} (hs : s.NoPublishFor n)
    (h : Host.Core.run Sys2Proof.core n s = .next t) : t.freq = s.freq := by
  induction n generalizing s with
  | zero => cases h; rfl
  | succ n ih =>
    obtain ⟨u, hu, ht⟩ := run_succ_eq_next.1 h
    obtain ⟨hfreq, hrest⟩ := hs.step hu
    exact (ih hrest ht).trans hfreq

/-- Settles O13: the operation reads the pre-edge state, so it loads or halts by the old frequency; the published one is all
that reaches `FREQ`, stays there while nothing publishes, and is what the next operation reads. -/
theorem sameCyclePublishReadsOldWritesNew : Obligations.SameCyclePublishReadsOldWritesNew := by
  intro s t d hword hop hstep
  have hpub : published (decodeSW s.currentWord) = some d := published_eq_some_iff.2 hword
  obtain ⟨e, he, ht⟩ := eq_of_step_of_no_reset (no_reset_of_published hpub) hstep
  rw [hpub, Option.getD_some] at ht
  have hcycle := engineCycle_of_exec he
  refine ⟨⟨e, he, ht⟩, ?loads, ?halts, fun n u hquiet hrun => ?next⟩
  case loads => subst ht; exact hcycle.loads hop
  case halts => subst ht; exact hcycle.halts hop
  case next =>
    obtain rfl : u.freq = d := (hquiet.run_freq hrun).trans (by rw [ht])
    refine ⟨rfl, fun v hop' hv => ⟨fun hf => ?_, fun hf => ?_⟩⟩
    · exact ((engineCycle_of_exec hv).loads hop' hf).1
    · exact ((engineCycle_of_exec hv).halts hop' hf).2.2

end Sys2Proof.Machine
end

section
/-! The decode of a stimulus word as a relation between words and rows (30_encoding R72 to R74): the six rows cover every word
and exclude each other, so the order of R72's tests does not show in the result. -/

namespace Sys2Proof

/-- The word's bits are those of the operation's row, and the operand is the number in the word's operand bits (R72 to R74).
An operation of the ENGINE has no stimulus word. -/
def StimulusRow (w : StimulusWord) : Instr → Prop
  | .reset => w &&& 0x80000#20 = 0x80000#20
  | .nop => w &&& 0xC0000#20 = 0x00000#20
  | .wrfreq d => w &&& 0xF0000#20 = 0x40000#20 ∧ d.toNat = w.toNat % 65536
  | .wrsamp v => w &&& 0xF0000#20 = 0x50000#20 ∧ v.toNat = w.toNat % 1024
  | .wrrsv2 x => w &&& 0xF0000#20 = 0x60000#20 ∧ x.toNat = w.toNat % 65536
  | .wrrsv3 x => w &&& 0xF0000#20 = 0x70000#20 ∧ x.toNat = w.toNat % 65536
  | .hold | .start | .pscinc | .cntdec | .tick => False
  | .tLatch | .tPload | .tHalt | .tWrap | .tOut0 | .tOut1 | .tOut2 | .tInc => False

/-! ## Operands and masks -/

@[simp] theorem dataField_toNat (w : StimulusWord) : (dataField w).toNat = w.toNat % 65536 := by
  simp [dataField]

@[simp] theorem sampleField_toNat (w : StimulusWord) : (sampleField w).toNat = w.toNat % 1024 := by
  simp [sampleField]

theorem eq_dataField_iff {w : StimulusWord} {d : BitVec 16} : d = dataField w ↔ d.toNat = w.toNat % 65536 := by
  rw [← BitVec.toNat_inj, dataField_toNat]

theorem eq_sampleField_iff {w : StimulusWord} {v : Sample} : v = sampleField w ↔ v.toNat = w.toNat % 1024 := by
  rw [← BitVec.toNat_inj, sampleField_toNat]

/-- What a mask shows decides what a narrower mask shows. -/
theorem and_eq_of_and_eq {n : Nat} {w wide c narrow : BitVec n} (h : w &&& wide = c)
    (hnarrow : wide &&& narrow = narrow) : w &&& narrow = c &&& narrow := by
  rw [← h, BitVec.and_assoc, hnarrow]

/-- The mask of the four selecting bits keeps them and clears the data. -/
theorem and_selectingMask (w : StimulusWord) : w &&& 0xF0000#20 = w.extractLsb' 16 4 ++ 0#16 := by
  have hmask : w.extractLsb' 16 4 &&& 0xF#4 = w.extractLsb' 16 4 := BitVec.and_allOnes
  calc w &&& 0xF0000#20 = (w.extractLsb' 16 4 ++ dataField w) &&& (0xF#4 ++ 0#16) := by rw [← append_split]; rfl
    _ = w.extractLsb' 16 4 ++ 0#16 := by rw [append_mask, hmask]

/-- The rows cover every word: one that is of none of the first five rows of R72 is of the sixth. -/
theorem selectingBits_of_no_other_row {w : StimulusWord} (hreset : ¬ w &&& 0x80000#20 = 0x80000#20)
    (hnop : ¬ w &&& 0xC0000#20 = 0x00000#20) (hfreq : ¬ w &&& 0xF0000#20 = 0x40000#20)
    (hsamp : ¬ w &&& 0xF0000#20 = 0x50000#20) (hrsv2 : ¬ w &&& 0xF0000#20 = 0x60000#20) :
    w &&& 0xF0000#20 = 0x70000#20 := by
  have hsel := and_selectingMask w
  rw [and_eq_of_and_eq hsel rfl] at hreset hnop
  rw [hsel] at hfreq hsamp hrsv2 ⊢
  generalize w.extractLsb' 16 4 = bits at hreset hnop hfreq hsamp hrsv2 ⊢
  revert bits
  decide

/-- A word with `rst = 0` and `h_we = 1` decodes by its four selecting bits `c` alone (R72). -/
theorem decodeSW_of_selectingBits {w c : StimulusWord} (hsel : w &&& 0xF0000#20 = c)
    (hreset : ¬ c &&& 0x80000#20 = 0x80000#20) (hnop : ¬ c &&& 0xC0000#20 = 0x00000#20) :
    decodeSW w =
      if c = 0x40000#20 then .wrfreq (dataField w) else if c = 0x50000#20 then .wrsamp (sampleField w)
      else if c = 0x60000#20 then .wrrsv2 (dataField w) else .wrrsv3 (dataField w) := by
  unfold decodeSW
  rw [and_eq_of_and_eq hsel rfl, and_eq_of_and_eq hsel rfl, if_neg hreset, if_neg hnop, hsel]

/-! ## The decode and the rows -/

/-- Every word is of the row it decodes to. -/
theorem stimulusRow_decodeSW (w : StimulusWord) : StimulusRow w (decodeSW w) := by
  unfold decodeSW
  split
  case isTrue hreset => exact hreset
  case isFalse hreset =>
  split
  case isTrue hnop => exact hnop
  case isFalse hnop =>
  split
  case isTrue hfreq => exact ⟨hfreq, dataField_toNat w⟩
  case isFalse hfreq =>
  split
  case isTrue hsamp => exact ⟨hsamp, sampleField_toNat w⟩
  case isFalse hsamp =>
  split
  case isTrue hrsv2 => exact ⟨hrsv2, dataField_toNat w⟩
  case isFalse hrsv2 =>
  exact ⟨selectingBits_of_no_other_row hreset hnop hfreq hsamp hrsv2, dataField_toNat w⟩

/-- A word is of no other row than the one it decodes to. -/
theorem StimulusRow.decodeSW_eq {w : StimulusWord} {i : Instr} (h : StimulusRow w i) : decodeSW w = i := by
  cases i with
  | reset => exact if_pos h
  | nop =>
    have hreset : ¬ w &&& 0x80000#20 = 0x80000#20 := by rw [and_eq_of_and_eq h rfl]; decide
    exact (if_neg hreset).trans (if_pos h)
  | wrfreq d =>
    obtain ⟨hsel, hd⟩ := h
    obtain rfl := eq_dataField_iff.2 hd
    exact decodeSW_of_selectingBits hsel (by decide) (by decide)
  | wrsamp v =>
    obtain ⟨hsel, hv⟩ := h
    obtain rfl := eq_sampleField_iff.2 hv
    exact decodeSW_of_selectingBits hsel (by decide) (by decide)
  | wrrsv2 x =>
    obtain ⟨hsel, hx⟩ := h
    obtain rfl := eq_dataField_iff.2 hx
    exact decodeSW_of_selectingBits hsel (by decide) (by decide)
  | wrrsv3 x =>
    obtain ⟨hsel, hx⟩ := h
    obtain rfl := eq_dataField_iff.2 hx
    exact decodeSW_of_selectingBits hsel (by decide) (by decide)
  | hold | start | pscinc | cntdec | tick => exact h.elim
  | tLatch | tPload | tHalt | tWrap | tOut0 | tOut1 | tOut2 | tInc => exact h.elim

/-- The decode is the relation: a word decodes to an operation exactly when it is of its row, with its operand. -/
theorem decodeSW_eq_iff {w : StimulusWord} {i : Instr} : decodeSW w = i ↔ StimulusRow w i :=
  ⟨fun h => h ▸ stimulusRow_decodeSW w, StimulusRow.decodeSW_eq⟩

/-- Settles O52: each clause is the decode's equivalence with one row of R72. -/
theorem stimulusDecodeFollowsTheTable : Obligations.StimulusDecodeFollowsTheTable := fun _ =>
  ⟨decodeSW_eq_iff, decodeSW_eq_iff, fun _ => decodeSW_eq_iff, fun _ => decodeSW_eq_iff, fun _ => decodeSW_eq_iff,
    fun _ => decodeSW_eq_iff⟩

end Sys2Proof
end

section
/-! The assembler, statement by statement (30_encoding R82, R83). Every statement, pseudo or not, is a number of copies of one
whole statement, so one rule gives the words of all of them. -/

namespace Sys2Proof.Script

/-- A statement that expands to `k` copies of a whole statement assembles to `k` copies of its word, or to an error if its
operand is out of range. -/
theorem assemble_of_expand {st whole : Stmt} {k n : Nat} (hexpand : expand st = List.replicate k whole)
    (hword : wordOf whole = some n) :
    assemble st = if st.wellFormed then some (List.replicate k (BitVec.ofNat 20 n)) else none := by
  rw [assemble, hexpand, List.filterMap_replicate_of_some hword, List.map_replicate]

/-- The same for a statement whose operand has the range `p`. -/
theorem assemble_of_range {st whole : Stmt} {k n : Nat} {p : Prop} [Decidable p] (hrange : st.wellFormed = decide p)
    (hexpand : expand st = List.replicate k whole) (hword : wordOf whole = some n) :
    assemble st = if p then some (List.replicate k (BitVec.ofNat 20 n)) else none := by
  simp only [assemble_of_expand hexpand hword, hrange, decide_eq_true_eq]

/-- A statement without a range always assembles. -/
theorem assemble_of_wellFormed {st whole : Stmt} {k n : Nat} (hwf : st.wellFormed = true)
    (hexpand : expand st = List.replicate k whole) (hword : wordOf whole = some n) :
    assemble st = some (List.replicate k (BitVec.ofNat 20 n)) := by
  rw [assemble_of_expand hexpand hword, if_pos hwf]

theorem assemble_rst : assemble .rst = some [0x80000#20] := assemble_of_wellFormed (k := 1) rfl rfl rfl

theorem assemble_nop : assemble .nop = some [0x00000#20] := assemble_of_wellFormed (k := 1) rfl rfl rfl

theorem assemble_stop : assemble .stop = some [0x40000#20] := assemble_of_wellFormed (k := 1) rfl rfl rfl

theorem assemble_wrfreq (n : Nat) :
    assemble (.wrfreq n) = if n ≤ 0xFFFF then some [BitVec.ofNat 20 (0x40000 + n)] else none :=
  assemble_of_range (k := 1) rfl rfl rfl

theorem assemble_wrsamp (n : Nat) :
    assemble (.wrsamp n) = if n ≤ 1023 then some [BitVec.ofNat 20 (0x50000 + n)] else none :=
  assemble_of_range (k := 1) rfl rfl rfl

theorem assemble_wrrsv2 (n : Nat) :
    assemble (.wrrsv2 n) = if n ≤ 0xFFFF then some [BitVec.ofNat 20 (0x60000 + n)] else none :=
  assemble_of_range (k := 1) rfl rfl rfl

theorem assemble_wrrsv3 (n : Nat) :
    assemble (.wrrsv3 n) = if n ≤ 0xFFFF then some [BitVec.ofNat 20 (0x70000 + n)] else none :=
  assemble_of_range (k := 1) rfl rfl rfl

theorem assemble_pubhz (n : Nat) :
    assemble (.pubhz n) = if n ≤ 255 then some [BitVec.ofNat 20 (0x40000 + n * 256)] else none :=
  assemble_of_range (k := 1) rfl rfl rfl

theorem assemble_clk (n : Nat) : assemble (.clk n) = some (List.replicate n 0x00000#20) :=
  assemble_of_wellFormed rfl rfl rfl

theorem assemble_rstn (n : Nat) :
    assemble (.rstn n) = if 1 ≤ n then some (List.replicate n 0x80000#20) else none :=
  assemble_of_range rfl rfl rfl

/-- Settles O58: one equation per statement and pseudo-statement. -/
theorem statementsAssembleToTheirWords : Obligations.StatementsAssembleToTheirWords :=
  ⟨assemble_rst, assemble_nop, assemble_stop, assemble_wrfreq, assemble_wrsamp, assemble_wrrsv2, assemble_wrrsv3,
    assemble_pubhz, assemble_clk, assemble_rstn⟩

end Sys2Proof.Script
end

section
/-! One clock cycle, from the words it decodes to the state it answers (40_cycle_step R90 to R94): a reset cycle, the tests of
`EnginePart`, and the cycles of an idle block with `FREQ = 0`. -/

namespace Sys2Proof.Machine

/-! ## What a cycle answers -/

/-- A cycle with `rst = 1` is `RESET` alone (R91). -/
theorem step_of_reset {s : State} (hrst : s.currentWord.getLsbD 19 = true) : step s = .next s.toReset.nextCycle :=
  step_eq_next_iff.2 (.inl ⟨hrst, s.toReset, rfl, rfl⟩)

/-- A cycle without reset answers the selected operation's state with the `FREQ` of the host command (R92). -/
theorem step_of_no_reset {s e : State} (hrst : s.currentWord.getLsbD 19 = false)
    (he : exec (decodeCW s.controlWord) s = .next e) :
    step s = .next { e with freq := (published (decodeSW s.currentWord)).getD s.freq,
                            stimulus := e.stimulus.tail, freeCount := e.freeCount + 1 } :=
  step_eq_next_iff.2 (.inr ⟨hrst, e, _, he, exec_decodeSW s _ hrst, rfl⟩)

/-! ## The host command of a word -/

/-- A word that decodes to no `RESET` has `rst = 0` (R72). -/
theorem no_reset_of_decodeSW_ne {w : StimulusWord} (h : decodeSW w ≠ .reset) : w.getLsbD 19 = false :=
  Bool.eq_false_iff.2 fun hrst => h ((decodeSW_eq_reset_iff w).2 hrst)

/-- The three cases of the `FREQ` after a cycle without reset: published by `WRFREQ`, published by `WRSAMP`, or kept. -/
theorem published_getD_cases (i : Instr) (f : Frequency) :
    i = .wrfreq ((published i).getD f) ∨ (∃ v, i = .wrsamp v ∧ (published i).getD f = fscale v) ∨
      (published i).getD f = f ∧ (∀ d, i ≠ .wrfreq d) ∧ ∀ v, i ≠ .wrsamp v := by
  cases hpub : published i with
  | some d => exact (published_eq_some_iff.1 hpub).imp_right .inl
  | none =>
    have hno : ∀ d, published i ≠ some d := by simp [hpub]
    exact .inr (.inr ⟨rfl, fun d hi => hno d (published_eq_some_iff.2 (.inl hi)),
      fun v hi => hno (fscale v) (published_eq_some_iff.2 (.inr ⟨v, hi, rfl⟩))⟩)

/-! ## The obligations -/

/-- Settles O5: the three conditions of the control word are the tests, `cexp = 0` being `2 <= CNT`. -/
theorem engineDispatchFollowsItsTests : Obligations.EngineDispatchFollowsItsTests := by
  intro s
  rw [decodeCW_controlWord]
  cases hrun : s.run
  case false => by_cases hfreq : s.freq = 0x0000#16 <;> simp [hfreq]
  case true =>
    by_cases hwrap : s.psc + 1 = s.config.prescale
    · have hcexp : s.cnt ≤ 1 ↔ ¬ 2 ≤ s.cnt := by omega
      by_cases hcnt : 2 ≤ s.cnt <;> simp [hwrap, hcexp, hcnt]
    · simp [hwrap]

/-- Settles O2: the state of `RESET` and its next cycle, written out. -/
theorem resetOverridesTheCycle : Obligations.ResetOverridesTheCycle :=
  fun _ => ⟨rfl, step_of_reset⟩

/-- Settles O14: the tests select `HOLD`, so the cycle answers the state itself but for the host command's `FREQ`. -/
theorem holdKeepsTheIdleState : Obligations.HoldKeepsTheIdleState := by
  refine ⟨fun _ => rfl, fun s hrun hfreq => ?_⟩
  have hhold : decodeCW s.controlWord = .hold := by simp [engineDispatchFollowsItsTests s, hrun, hfreq]
  have hexec : exec (decodeCW s.controlWord) s = .next s := by rw [hhold]; rfl
  refine ⟨hhold, fun hrst => ⟨_, step_of_no_reset hrst hexec, ?host⟩, fun hword => ?nop⟩
  case host => simpa only [hfreq] using published_getD_cases (decodeSW s.currentWord) s.freq
  case nop =>
    have hnop : decodeSW s.currentWord = .nop := decodeSW_eq_iff.2 hword
    have hrst : s.currentWord.getLsbD 19 = false := no_reset_of_decodeSW_ne (by simp [hnop])
    rw [step_of_no_reset hrst hexec, hnop]
    rfl

end Sys2Proof.Machine
end

section
/-! The host port (41_host_port R100 to R103). The operation that a control word selects neither reads nor writes the HOST's
words, so the stimulus word of a cycle acts through its `rst` bit and the frequency it publishes alone. -/

namespace Sys2Proof.Machine

/-! ## The operation that the control word selects -/

/-- Every operation executes in every state (R170). -/
theorem exists_exec_eq_next (i : Instr) (s : State) : ∃ t, exec i s = .next t := by
  cases i <;> exact ⟨_, rfl⟩

@[simp] theorem State.tickState_freq (s : State) : s.tickState.freq = s.freq := by
  rw [tickState_eq]; split <;> simp

namespace EngineCycle

variable {s e : State} {i : Instr}

/-- No internal operation writes `FREQ` (R32, R92). -/
theorem freq_eq (h : EngineCycle s i e) : e.freq = s.freq := by
  cases h with
  | tick => exact s.tickState_freq
  | hold | start | pscinc | cntdec => rfl

/-- `EngineCycle` lists nothing but what the selected operation does: the converse of `engineCycle_of_exec`. -/
theorem exec_eq (h : EngineCycle s i e) : exec (decodeCW s.controlWord) s = .next e := by
  cases h with
  | hold idle zero => simp [decodeCW_controlWord, exec, execHold, idle, zero]
  | start idle nonzero => simp [decodeCW_controlWord, exec, execStart, idle, nonzero]
  | pscinc running below => simp [decodeCW_controlWord, exec, execPscinc, running, below]
  | cntdec running wrap counting =>
    have hcexp : s.cexp = false := (cexp_eq_false_iff s).2 counting
    simp [decodeCW_controlWord, exec, execCntdec, running, wrap, hcexp]
  | tick running wrap expired => simp [decodeCW_controlWord, exec, execTick, tickRequest_iff, running, wrap, expired]

end EngineCycle

/-! ## The word of a cycle and the ENGINE -/

namespace State

variable (s : State) (w : StimulusWord)

@[simp] theorem currentWord_withStimulusWord : (s.withStimulusWord w).currentWord = w := rfl

/-- A tick treats its timer the same whatever word the HOST presents. -/
theorem tickTimer_withStimulusWord : (s.withStimulusWord w).tickTimer = s.tickTimer.withStimulusWord w := by
  unfold tickTimer
  by_cases hf : s.freq = 0x0000#16
  · rw [dif_pos hf, dif_pos (show (s.withStimulusWord w).freq = 0x0000#16 from hf)]
    rfl
  · rw [dif_neg hf, dif_neg (show (s.withStimulusWord w).freq ≠ 0x0000#16 from hf)]
    rfl

theorem tickState_withStimulusWord : (s.withStimulusWord w).tickState = s.tickState.withStimulusWord w := by
  rw [tickState_eq, tickState_eq, tickTimer_withStimulusWord]
  have hreach : (s.withStimulusWord w).reachesOutput = s.reachesOutput := rfl
  rw [hreach]
  cases s.reachesOutput <;> rfl

end State

/-- The ENGINE does in a cycle what it does whatever word the HOST presents (R92). -/
theorem EngineCycle.withStimulusWord {s e : State} {i : Instr} (h : EngineCycle s i e) (w : StimulusWord) :
    EngineCycle (s.withStimulusWord w) i (e.withStimulusWord w) := by
  cases h with
  | hold idle zero => exact .hold idle zero
  | start idle nonzero => exact .start (s := s.withStimulusWord w) idle nonzero
  | pscinc running below => exact .pscinc running below
  | cntdec running wrap counting => exact .cntdec running wrap counting
  | tick running wrap expired =>
    rw [← State.tickState_withStimulusWord]
    exact .tick running wrap expired

/-! ## What the word of a cycle decides -/

/-- The step depends on the word through its `rst` bit and the frequency it publishes. -/
theorem step_withStimulusWord_congr (s : State) {w w' : StimulusWord} (hrst : w.getLsbD 19 = w'.getLsbD 19)
    (hpub : published (decodeSW w) = published (decodeSW w')) :
    step (s.withStimulusWord w) = step (s.withStimulusWord w') := by
  cases hw : w.getLsbD 19
  case true =>
    have hw' : w'.getLsbD 19 = true := hrst ▸ hw
    rw [step_of_reset (s := s.withStimulusWord w) (by simpa using hw),
      step_of_reset (s := s.withStimulusWord w') (by simpa using hw')]
    rfl
  case false =>
    have hw' : w'.getLsbD 19 = false := hrst ▸ hw
    obtain ⟨e, he⟩ := exists_exec_eq_next (decodeCW s.controlWord) s
    have hcycle := engineCycle_of_exec he
    rw [step_of_no_reset (by simpa using hw) (hcycle.withStimulusWord w).exec_eq,
      step_of_no_reset (by simpa using hw') (hcycle.withStimulusWord w').exec_eq]
    simp only [State.currentWord_withStimulusWord, hpub]
    rfl

/-- The outputs depend on the word through its `rst` bit, which masks `tick_o` (R95). -/
theorem outputs_withStimulusWord_congr (s : State) {w w' : StimulusWord} (hrst : w.getLsbD 19 = w'.getLsbD 19) :
    (s.withStimulusWord w).outputs = (s.withStimulusWord w').outputs := by
  have htick : (!w.getLsbD 19 && s.tickRequest) = (!w'.getLsbD 19 && s.tickRequest) := by rw [hrst]
  exact congrArg (Outputs.mk s.duty0 s.duty1 s.duty2 s.period s.run) htick

/-- A word that neither resets nor publishes is indistinguishable from `NOP`. -/
theorem cycle_eq_nop_of_not_published (s : State) {w : StimulusWord} (hreset : decodeSW w ≠ .reset)
    (hpub : published (decodeSW w) = none) :
    (s.withStimulusWord w).outputs = (s.withStimulusWord 0x00000#20).outputs ∧
      step (s.withStimulusWord w) = step (s.withStimulusWord 0x00000#20) :=
  have hrst : w.getLsbD 19 = (0x00000#20).getLsbD 19 := no_reset_of_decodeSW_ne hreset
  ⟨outputs_withStimulusWord_congr s hrst, step_withStimulusWord_congr s hrst hpub⟩

theorem decodeSW_reserved2 (x : BitVec 16) : decodeSW (0b0110#4 ++ x) = .wrrsv2 x := by
  rw [decodeSW_append]
  rfl

theorem decodeSW_reserved3 (x : BitVec 16) : decodeSW (0b0111#4 ++ x) = .wrrsv3 x := by
  rw [decodeSW_append]
  rfl

/-! ## The obligations -/

/-- Settles O12: both reserved writes neither reset nor publish. -/
theorem reservedWritesAreNop : Obligations.ReservedWritesAreNop := by
  intro x s
  obtain ⟨hout2, hstep2⟩ := cycle_eq_nop_of_not_published s (w := 0b0110#4 ++ x)
    (by simp [decodeSW_reserved2]) (by rw [decodeSW_reserved2]; rfl)
  obtain ⟨hout3, hstep3⟩ := cycle_eq_nop_of_not_published s (w := 0b0111#4 ++ x)
    (by simp [decodeSW_reserved3]) (by rw [decodeSW_reserved3]; rfl)
  exact ⟨rfl, rfl, hout2, hout3, hstep2, hstep3⟩

/-- Settles O9: `NOP` publishes nothing, so the cycle keeps the `FREQ` that no internal operation writes. -/
theorem nopLeavesTheCycleToTheEngine : Obligations.NopLeavesTheCycleToTheEngine := by
  refine ⟨fun _ => rfl, fun s e hword he => ?_⟩
  have hnop : decodeSW s.currentWord = .nop := decodeSW_eq_iff.2 hword
  have hrst : s.currentWord.getLsbD 19 = false := no_reset_of_decodeSW_ne (by simp [hnop])
  have hfreq : (published (decodeSW s.currentWord)).getD s.freq = e.freq := by
    rw [hnop, (engineCycle_of_exec he).freq_eq]
    rfl
  rw [step_of_no_reset hrst he, hfreq]

/-- Settles O10: `WRFREQ` is the one write of `State.publish`. -/
theorem wrfreqPublishesItsOperand : Obligations.WrfreqPublishesItsOperand :=
  fun _ _ => rfl

/-- Settles O11: `FSCALE` of a sample is its number, and a sample is at most 1023. -/
theorem wrsampPublishesTheScaledSample : Obligations.WrsampPublishesTheScaledSample := by
  intro v s
  refine ⟨fscale v, rfl, fscale_toNat v, ?_⟩
  have hv := v.isLt
  rw [fscale_toNat]
  omega

end Sys2Proof.Machine
end

section
/-! The three converters (42_converters R113, R114, R119, R120). The properties of `FSCALE` all follow from the bracket that its
truncating division puts around the real-number law; the two forms of `PCONV` are one rounded quotient, of which 256 cancels; the
properties of `DSCALE` follow from its number. -/

namespace Sys2Proof.Machine

/-! ## `FSCALE` -/

/-- `FSCALE` is less than one unit below the real-number law (R113 (e)). -/
theorem fscale_bracket (v : Sample) :
    (fscale v).toNat * 1023 ≤ v.toNat * 30720 ∧ v.toNat * 30720 < ((fscale v).toNat + 1) * 1023 := by
  rw [fscale_toNat]
  exact ⟨Nat.div_mul_le_self _ _, Nat.lt_mul_of_div_lt (Nat.lt_succ_self _) (by decide)⟩

/-- `FSCALE` does not exceed its value at the largest sample (R113 (b)). -/
theorem fscale_le (v : Sample) : (fscale v).toNat ≤ 30720 := by
  have hlow := (fscale_bracket v).1
  have hv := v.isLt
  omega

/-- `FSCALE` of consecutive samples differs by 30 or 31, the integers around 30720 / 1023 (R113 (c)). -/
theorem fscale_succ {v w : Sample} (h : v.toNat + 1 = w.toNat) :
    (fscale w).toNat = (fscale v).toNat + 30 ∨ (fscale w).toNat = (fscale v).toNat + 31 := by
  obtain ⟨hvlow, hvhigh⟩ := fscale_bracket v
  obtain ⟨hwlow, hwhigh⟩ := fscale_bracket w
  omega

/-- `FSCALE` is strictly increasing, for a step of one sample is worth more than one unit (R113 (c)). -/
theorem fscale_lt_fscale {v w : Sample} (h : v.toNat < w.toNat) : (fscale v).toNat < (fscale w).toNat := by
  have hvlow := (fscale_bracket v).1
  have hwhigh := (fscale_bracket w).2
  omega

theorem fscale_zero : fscale 0#10 = 0x0000#16 := rfl

/-- A non-zero sample lies above sample 0, and so does its frequency (R113 (d)). -/
theorem eq_zero_of_fscale_eq_zero {v : Sample} (h : fscale v = 0x0000#16) : v = 0#10 := by
  obtain hv | hpos := Nat.eq_zero_or_pos v.toNat
  · exact BitVec.eq_of_toNat_eq hv
  · have hlt : (fscale 0#10).toNat < (fscale v).toNat := fscale_lt_fscale hpos
    rw [h, fscale_zero] at hlt
    exact absurd hlt (Nat.lt_irrefl _)

/-! ## `PCONV` -/

/-- A common factor of numerator and denominator does not change the rounded quotient. -/
theorem roundHalfUp_mul_right (a b : Nat) {k : Nat} (hk : 0 < k) : roundHalfUp (a * k) (b * k) = roundHalfUp a b := by
  unfold roundHalfUp
  rw [← Nat.mul_assoc, ← Nat.mul_assoc, ← Nat.add_mul, Nat.mul_div_mul_right _ _ hk]

/-- The table length and the fixed-point scale are both 256 and cancel in `PCONV` (R114). -/
theorem pconv_eq_narrow (c : Config) (f : Frequency) (h : f ≠ 0x0000#16) :
    pconv c f h = clamp (roundHalfUp c.fClk (c.prescale * f.toNat)) 1 c.pmax := by
  unfold pconv
  rw [Nat.mul_right_comm c.prescale 256, roundHalfUp_mul_right _ _ (by decide)]

/-! ## `DSCALE` -/

theorem dscale_of_not_scaled {c : Config} (hc : c.dutyScale = false) (raw : Byte) (p : Nat) : dscale c raw p = raw := by
  simp [dscale, hc]

/-- The clamp to 255 keeps a scaled duty value within its byte, so its word is its number (R110, R119). -/
theorem dscale_toNat_of_scaled {c : Config} (hc : c.dutyScale = true) (raw : Byte) (p : Nat) :
    (dscale c raw p).toNat = clamp ((raw.toNat * p + 128) / 256) 0 255 := by
  have hle := (clamp_bounds (v := (raw.toNat * p + 128) / 256) (Nat.zero_le 255)).2
  simp only [dscale, hc, if_true, BitVec.toNat_ofNat]
  exact Nat.mod_eq_of_lt (by omega)

/-- A scaled duty value is the rounded product up to 255 (R119). -/
theorem dscale_toNat_eq_min {c : Config} (hc : c.dutyScale = true) (raw : Byte) (p : Nat) :
    (dscale c raw p).toNat = min 255 ((raw.toNat * p + 128) / 256) :=
  (dscale_toNat_of_scaled hc raw p).trans (Nat.zero_max _)

theorem dscale_zero (c : Config) (p : Nat) : dscale c 0#8 p = 0#8 := by
  cases hc : c.dutyScale
  case false => exact dscale_of_not_scaled hc _ _
  case true =>
    apply BitVec.eq_of_toNat_eq
    simp [dscale_toNat_eq_min hc]

/-- For a period of 8 bits the largest product, 255 * 255, rounds to 254 (R120 (a)). -/
theorem dscale_le_of_period_le {c : Config} (hc : c.dutyScale = true) (raw : Byte) {p : Nat} (hp : p ≤ 255) :
    (dscale c raw p).toNat ≤ 254 := by
  have hproduct : raw.toNat * p ≤ 255 * 255 := Nat.mul_le_mul (Nat.le_of_lt_succ raw.isLt) hp
  rw [dscale_toNat_eq_min hc]
  omega

/-- Product, quotient and clamp are each monotone (R120 (e)). -/
theorem dscale_mono {c : Config} (hc : c.dutyScale = true) {raw raw' : Byte} {p p' : Nat} (hraw : raw.toNat ≤ raw'.toNat)
    (hp : p ≤ p') : (dscale c raw p).toNat ≤ (dscale c raw' p').toNat := by
  rw [dscale_toNat_of_scaled hc, dscale_toNat_of_scaled hc]
  exact clamp_mono (Nat.div_le_div_right (Nat.add_le_add_right (Nat.mul_le_mul hraw hp) 128))

/-! ## The obligations -/

/-- Settles O43: the bracket around the law, what follows from it, and the listed values. -/
theorem fscaleIsExactAtTheEndsAndIncreasing : Obligations.FscaleIsExactAtTheEndsAndIncreasing := by
  refine ⟨fscale_zero, by decide, fscale_le, fun _ _ => fscale_succ, fun _ _ => fscale_lt_fscale,
    fun _ => eq_zero_of_fscale_eq_zero, fun v => ?_, by decide⟩
  rw [Nat.mul_assoc v.toNat 120 256]
  exact fscale_bracket v

/-- Settles O44: the first form is the definition, the second has the factor 256 cancelled. -/
theorem pconvHasItsTwoForms : Obligations.PconvHasItsTwoForms :=
  fun c f h _ => ⟨rfl, pconv_eq_narrow c f h⟩

/-- Settles O47: the two settings of `DUTY_SCALE`, and what follows from the number of a scaled value. -/
theorem dscaleRoundsOnceAndIsMonotone : Obligations.DscaleRoundsOnceAndIsMonotone :=
  fun c => ⟨dscale_of_not_scaled, fun hc => ⟨dscale_toNat_eq_min hc, dscale_zero c,
    fun raw _ => dscale_le_of_period_le hc raw, fun _ _ _ _ => dscale_mono hc⟩⟩

end Sys2Proof.Machine
end

section
/-! The timer (43_timer R131 to R136): what `START`, `PSCINC` and `CNTDEC` answer in the states that select them, and the number
of cycles left before a running timer ticks, which every cycle without reset takes 1 from. -/

namespace Sys2Proof.Machine

/-! ## What the operations of the timer answer -/

theorem exec_start {s : State} (idle : s.run = false) (nonzero : s.freq ≠ 0x0000#16) :
    exec .start s = .next (s.loadTimer (pconv s.config s.freq nonzero)).setRunning :=
  congrArg _ (dif_pos ⟨idle, nonzero⟩)

theorem exec_pscinc {s : State} (running : s.run = true) (below : s.psc + 1 ≠ s.config.prescale) :
    exec .pscinc s = .next (s.setPsc s.pscNext) :=
  congrArg _ (if_pos ⟨running, (pwrap_eq_false_iff s).2 below⟩)

theorem exec_cntdec {s : State} (running : s.run = true) (wrap : s.psc + 1 = s.config.prescale) (counting : 2 ≤ s.cnt) :
    exec .cntdec s = .next (s.setCnt (s.cnt - 1)) :=
  congrArg _ (if_pos ⟨running, (pwrap_iff s).2 wrap, (cexp_eq_false_iff s).2 counting⟩)

theorem decodeCW_eq_start_of_idle {s : State} (idle : s.run = false) (nonzero : s.freq ≠ 0x0000#16) :
    decodeCW s.controlWord = .start := by
  simp [decodeCW_controlWord, idle, nonzero]

/-- `PSCINC` is selected below the wrap alone (R93). -/
theorem decodeCW_ne_pscinc_of_wrap {s : State} (wrap : s.psc + 1 = s.config.prescale) :
    decodeCW s.controlWord ≠ .pscinc := by
  rw [decodeCW_controlWord, (pwrap_iff s).2 wrap]
  cases s.run <;> cases s.cexp <;> cases s.fnz <;> decide

/-- A prescaler of 1 has a `PSC` of no bits (R20). -/
theorem pscWidth_eq_zero {c : Config} (h : c.prescale = 1) : c.pscWidth = 0 := by
  simp [Config.pscWidth, h]

/-! ## The cycles left before a tick -/

/-- The timer runs and ticks after `k` cycles more: they are `CNT` rounds of `PRESCALE` cycles, without the `PSC` that have
passed and without the tick's own (R132 to R134). -/
structure State.TicksIn (s : State) (k : Nat) : Prop where
  running : s.run = true
  psc_lt : s.psc < s.config.prescale
  cycles : s.psc + k + 1 = s.cnt * s.config.prescale

/-- The tick executes when no cycle is left (R134). -/
theorem State.TicksIn.decodeCW_eq_tick_iff {s : State} {k : Nat} (hs : s.TicksIn k) :
    decodeCW s.controlWord = .tick ↔ k = 0 := by
  obtain ⟨running, hpsc, hcycles⟩ := hs
  rw [Machine.decodeCW_eq_tick_iff, tickRequest_iff]
  constructor
  · rintro ⟨-, wrap, expired⟩
    have hround : s.cnt * s.config.prescale ≤ 1 * s.config.prescale := Nat.mul_le_mul_right _ expired
    omega
  · rintro rfl
    have hcnt : s.cnt ≠ 0 := fun h => by simp [h] at hcycles
    have hround : 1 * s.config.prescale ≤ s.cnt * s.config.prescale :=
      Nat.mul_le_mul_right _ (Nat.one_le_iff_ne_zero.2 hcnt)
    exact ⟨running, by omega, Nat.le_of_mul_le_mul_right (by omega) (Nat.zero_lt_of_lt hpsc)⟩

namespace EngineCycle

variable {s e : State} {i : Instr} {k : Nat}

/-- No internal operation changes the parameters (R38). -/
theorem config_eq (h : EngineCycle s i e) : e.config = s.config := by
  cases h with
  | tick => exact s.tickState_config
  | hold | start | pscinc | cntdec => rfl

/-- `START` and `TICK` clear `PSC` (R131, R145). -/
theorem psc_eq_zero (h : EngineCycle s i e) (hi : i = .start ∨ i = .tick) : e.psc = 0 := by
  cases h with
  | start => rfl
  | tick => exact s.tickState_psc
  | hold | pscinc | cntdec => simp at hi

/-- A `START`, or a `TICK` that does not halt, leaves its whole period to the next tick (R131, R147). -/
theorem ticksIn_of_loads (h : EngineCycle s i e) (hi : i = .start ∨ i = .tick) (hf : s.freq ≠ 0x0000#16)
    (hk : k + 1 = pconv s.config s.freq hf * s.config.prescale) : e.TicksIn k := by
  obtain ⟨-, hcnt, hrun⟩ := h.loads hi hf
  have hprescale : s.config.prescale ≠ 0 := fun h => by simp [h] at hk
  refine ⟨hrun, ?_, ?_⟩
  · rw [h.psc_eq_zero hi, h.config_eq]
    exact Nat.pos_of_ne_zero hprescale
  · rw [h.psc_eq_zero hi, h.config_eq, hcnt, Nat.zero_add, hk]

/-- Every operation before the tick takes 1 from the cycles left: `PSCINC` within a round, `CNTDEC` at its end. -/
theorem ticksIn (h : EngineCycle s (decodeCW s.controlWord) e) (hs : s.TicksIn (k + 1)) : e.TicksIn k := by
  have hno : decodeCW s.controlWord ≠ .tick := fun htick => Nat.succ_ne_zero k (hs.decodeCW_eq_tick_iff.1 htick)
  obtain ⟨hrun, hpsc, hcycles⟩ := hs
  generalize decodeCW s.controlWord = i at h hno
  cases h with
  | hold idle | start idle => exact absurd (hrun.symm.trans idle) (by decide)
  | tick => exact absurd rfl hno
  | pscinc running below =>
    rw [pscNext_eq_succ hpsc below]
    refine ⟨running, ?_, ?_⟩
    · show s.psc + 1 < s.config.prescale
      omega
    · show s.psc + 1 + k + 1 = s.cnt * s.config.prescale
      omega
  | cntdec running wrap counting =>
    refine ⟨running, Nat.zero_lt_of_lt hpsc, ?_⟩
    show 0 + k + 1 = (s.cnt - 1) * s.config.prescale
    rw [Nat.sub_mul]
    omega

end EngineCycle

/-! ## Cycles in which the HOST does not reset -/

/-- The cycle of the first listed word is an ENGINE cycle, after which the other words still hold no reset; the host command
reaches neither the parameters nor the timer (R92). -/
theorem State.NoResetFor.exists_step {s : State} {n : Nat} (hs : s.NoResetFor (n + 1)) :
    ∃ e host, EngineCycle s (decodeCW s.controlWord) e ∧ step s = .next (e.merge host).nextCycle ∧
      (e.merge host).nextCycle.NoResetFor n := by
  obtain ⟨hlen, hwords⟩ := hs
  obtain ⟨w, ws, hstim⟩ := List.exists_cons_of_length_pos (Nat.zero_lt_of_lt hlen)
  rw [hstim] at hlen hwords
  have hrst : s.currentWord.getLsbD 19 = false := by
    rw [currentWord_cons s w ws hstim]
    exact hwords w (by simp)
  obtain ⟨e, he⟩ := exists_exec_eq_next (decodeCW s.controlWord) s
  obtain ⟨host, hhost⟩ := exists_exec_eq_next (decodeSW s.currentWord) s
  have hcycle := engineCycle_of_exec he
  have htail : (e.merge host).nextCycle.stimulus = ws := by
    rw [nextCycle_stimulus, merge_stimulus, hcycle.stimulus_eq, hstim, List.tail_cons]
  refine ⟨e, host, hcycle, step_eq_next_iff.2 (.inr ⟨hrst, e, host, he, hhost, rfl⟩), ?_, fun w' hw' => hwords w' ?_⟩
  · rw [htail]
    exact Nat.le_of_succ_le_succ hlen
  · rw [htail] at hw'
    exact List.mem_cons_of_mem w hw'

/-- The host command and the input side are not in the timer. -/
theorem State.TicksIn.merge_nextCycle {e : State} {k : Nat} (he : e.TicksIn k) (host : State) :
    (e.merge host).nextCycle.TicksIn k :=
  ⟨he.running, he.psc_lt, he.cycles⟩

/-- A run of `n` cycles takes `n` from the cycles left, whatever the HOST does but reset. -/
theorem State.TicksIn.run {s : State} {k n : Nat} (hs : s.TicksIn (k + n)) (hquiet : s.NoResetFor (k + n + 1)) :
    ∃ t, Host.Core.run Sys2Proof.core n s = .next t ∧ t.TicksIn k := by
  induction n generalizing s with
  | zero => exact ⟨s, rfl, hs⟩
  | succ n ih =>
    obtain ⟨e, host, hcycle, hstep, hrest⟩ := hquiet.exists_step
    obtain ⟨t, hrun, ht⟩ := ih ((hcycle.ticksIn hs).merge_nextCycle host) hrest
    exact ⟨t, run_succ_eq_next.2 ⟨_, hstep, hrun⟩, ht⟩

/-! ## The obligations -/

/-- Settles O19: the loading cycle leaves `p * PRESCALE - 1` cycles before the tick, and every later cycle takes 1 from them. -/
theorem ticksAreAPeriodApart : Obligations.TicksAreAPeriodApart := by
  intro s hf _ hselect hquiet n hpos hle
  obtain ⟨m, rfl⟩ := Nat.exists_eq_succ_of_ne_zero (Nat.ne_of_gt hpos)
  obtain ⟨k, hk⟩ := Nat.exists_eq_add_of_le' hle
  have hop : decodeCW s.controlWord = .start ∨ decodeCW s.controlWord = .tick :=
    hselect.imp (decodeCW_eq_start_of_idle · hf) (decodeCW_eq_tick_iff s).2
  obtain ⟨e, host, hcycle, hstep, hrest⟩ := hquiet.exists_step
  have hload : e.TicksIn (k + m) := hcycle.ticksIn_of_loads hop hf hk.symm
  rw [hk] at hrest
  obtain ⟨t, hrun, ht⟩ := (hload.merge_nextCycle host).run hrest
  refine ⟨t, run_succ_eq_next.2 ⟨_, hstep, hrun⟩, ?_⟩
  rw [ht.decodeCW_eq_tick_iff, hk]
  omega

/-- Settles O16: a sum that fits the register is counted, below `PRESCALE` it always fits, and at `PRESCALE = 1` the `PSC` of
no bits is always at the wrap. -/
theorem pscincCountsThePrescaler : Obligations.PscincCountsThePrescaler := by
  refine ⟨fun s running below => ⟨fun hfits => ?fits, fun hpsc => ⟨?counts, by omega⟩⟩, fun s hone hwidth => ?never⟩
  case fits =>
    have hnext : s.pscNext = s.psc + 1 := if_pos hfits
    rw [exec_pscinc running below, hnext]
    rfl
  case counts =>
    rw [exec_pscinc running below, pscNext_eq_succ hpsc below]
    rfl
  case never =>
    rw [pscWidth_eq_zero hone] at hwidth
    exact decodeCW_ne_pscinc_of_wrap (by omega)

/-- Settles O15: the selection and the writes of `START`. -/
theorem startLoadsThePeriodAndRuns : Obligations.StartLoadsThePeriodAndRuns :=
  fun _ nonzero idle => ⟨decodeCW_eq_start_of_idle idle nonzero, exec_start idle nonzero⟩

/-- Settles O18: the writes of `CNTDEC`, whose condition leaves `CNT` at least 1. -/
theorem cntdecCountsDown : Obligations.CntdecCountsDown :=
  fun _ running wrap counting => ⟨exec_cntdec running wrap counting, Nat.le_sub_of_add_le counting⟩

end Sys2Proof.Machine
end

section
/-! The engine tick (44_engine_tick R145 to R155): what the dead tick, the three outputs and the increment write, and the
transitions of `RUN`. -/

namespace Sys2Proof.Machine

/-! ## The transitions of `RUN` -/

namespace EngineCycle

variable {s e : State} {i : Instr}

/-- Of the operations an idle block can select, `START` alone sets `RUN` (R155). -/
theorem run_iff_start_of_idle (h : EngineCycle s i e) (idle : s.run = false) : e.run = true ↔ i = .start := by
  cases h with
  | hold => simp [idle]
  | start => simp
  | pscinc running | cntdec running | tick running => exact absurd (running.symm.trans idle) (by decide)

/-- Of the operations a running block can select, the `TICK` that reads frequency 0 alone clears `RUN` (R148, R155). -/
theorem not_run_iff_halt_of_running (h : EngineCycle s i e) (running : s.run = true) :
    e.run = false ↔ i = .tick ∧ s.freq = 0x0000#16 := by
  cases h with
  | hold idle | start idle => exact absurd (running.symm.trans idle) (by decide)
  | pscinc | cntdec => simp [running]
  | tick => simp [running]

end EngineCycle

/-! ## What a tick and its sub-operations answer -/

theorem exec_tick {s : State} (requested : s.tickRequest = true) : exec .tick s = .next s.tickState :=
  congrArg _ (if_pos requested)

theorem exec_tInc {s : State} (requested : s.tickRequest = true) (reaches : s.reachesOutput = true) :
    exec .tInc s = .next (s.setIndex (s.tickIndex + 1)) :=
  congrArg _ ((if_pos requested).trans (if_pos reaches))

/-- The sub-operation of step 4 that serves a channel (R151 to R153). -/
def Channel.outputOp : Channel → Instr
  | .ch0 => .tOut0
  | .ch1 => .tOut1
  | .ch2 => .tOut2

/-- Each output writes the duty register of its own channel (R78, R151 to R153). -/
theorem exec_outputOp {s : State} (requested : s.tickRequest = true) (reaches : s.reachesOutput = true) (k : Channel) :
    exec (Channel.outputOp k) s = .next (s.setDuty k (s.dutyValue s.tickIndex s.tickPeriod k)) := by
  cases k <;> exact congrArg _ ((if_pos requested).trans (if_pos reaches))

namespace State

variable {s : State}

theorem tickTimer_of_ne (h : s.freq ≠ 0x0000#16) : s.tickTimer = s.loadTimer (pconv s.config s.freq h) := dif_neg h

theorem tickTimer_of_eq (h : s.freq = 0x0000#16) : s.tickTimer = s.haltTimer := dif_pos h

/-- The dead tick is step 2 and the index reset, without steps 4 and 5 (R149). -/
theorem tickState_of_dead (dead : s.config.wrapMode = .dead) (wrap : 256 ≤ s.index.toNat) :
    s.tickState = s.tickTimer.setIndex 0 := by
  have hskips : ¬ s.reachesOutput = true := by simp [reachesOutput, iend, dead, wrap]
  rw [tickState_eq, if_neg hskips]

/-- Steps 4 and 5 are reached with the local index `i` below the table length, or in `CONT` mode from beyond it with 0. -/
theorem reachesOutput_at_iff {i : Nat} : s.reachesOutput = true ∧ s.tickIndex = i ↔
    s.index.toNat < 256 ∧ i = s.index.toNat ∨ s.config.wrapMode = .cont ∧ 256 ≤ s.index.toNat ∧ i = 0 := by
  by_cases h : 256 ≤ s.index.toNat
  · simp [reachesOutput, iend, tickIndex, h, Nat.not_lt.2 h, eq_comm]
  · simp [reachesOutput, iend, tickIndex, h, Nat.not_le.1 h, eq_comm]

/-- The period of a tick is what step 2 produces: `PCONV` of a non-zero frequency, or the retained period (R147, R148). -/
theorem tickPeriod_eq_iff {p : Nat} : s.tickPeriod = p ↔
    (∃ h : s.freq ≠ 0x0000#16, p = pconv s.config s.freq h) ∨ s.freq = 0x0000#16 ∧ p = s.period := by
  by_cases hf : s.freq = 0x0000#16
  · simp [tickPeriod_of_eq s hf, hf, eq_comm]
  · simp [tickPeriod_of_ne s hf, hf, eq_comm]

end State

/-! ## The obligations -/

/-- Settles O32: `RESET` clears `RUN`; any other cycle leaves it as the selected operation does, which from IDLE is set by
`START` alone and from RUNNING cleared by the halting `TICK` alone. -/
theorem runChangesOnlyByStartHaltAndReset : Obligations.RunChangesOnlyByStartHaltAndReset := by
  intro s t hstep
  obtain ⟨hrst, rfl⟩ | ⟨hrst, e, host, hcycle, rfl⟩ := step_cases hstep
  · have hno : s.currentWord.getLsbD 19 ≠ false := fun h => absurd (hrst.symm.trans h) (by decide)
    exact ⟨fun _ => rfl, fun h => absurd h hno, fun h => absurd h hno⟩
  · refine ⟨fun h => absurd (hrst.symm.trans h) (by decide), fun _ => ?fromIdle, fun _ => ?fromRunning⟩
    case fromIdle => exact hcycle.run_iff_start_of_idle
    case fromRunning => exact hcycle.not_run_iff_halt_of_running

/-- Settles O22: the dead tick, with either outcome of step 2. -/
theorem deadTickWritesNoDuty : Obligations.DeadTickWritesNoDuty := by
  intro s dead running prescaled expired wrap
  rw [exec_tick ((tickRequest_iff s).2 ⟨running, prescaled, expired⟩), State.tickState_of_dead dead wrap]
  refine ⟨fun hf => ?reloads, fun hf => ?halts⟩
  case reloads => rw [State.tickTimer_of_ne hf]; rfl
  case halts => rw [State.tickTimer_of_eq hf]; rfl

/-- Settles O29: `i` and `p` are the tick's locals, and each output writes its own channel from them. -/
theorem outputsWriteTheirOwnDutyRegister : Obligations.OutputsWriteTheirOwnDutyRegister := by
  intro s i p requested hindex hperiod
  obtain ⟨reaches, rfl⟩ := State.reachesOutput_at_iff.2 hindex
  obtain rfl := State.tickPeriod_eq_iff.2 hperiod
  have houtput := exec_outputOp requested reaches
  exact ⟨houtput .ch0, houtput .ch1, houtput .ch2⟩

/-- Settles O30: the local index is below 256, so its successor fits `INDEX` unreduced. -/
theorem incAdvancesTheIndexByOne : Obligations.IncAdvancesTheIndexByOne := by
  intro s i requested hindex
  obtain ⟨reaches, rfl⟩ := State.reachesOutput_at_iff.2 hindex
  have hlt := s.tickIndex_lt
  have hnumber : (BitVec.ofNat 9 (s.tickIndex + 1)).toNat = s.tickIndex + 1 := Nat.mod_eq_of_lt (by omega)
  exact ⟨_, exec_tInc requested reaches, hnumber, by omega, by omega⟩

end Sys2Proof.Machine
end

section
/-! Whole-cycle rules (10_state R20, R33; 40_cycle_step R90 to R95; 44_engine_tick R158): what every step keeps, and which
operation writes which register. -/

namespace Sys2Proof.Machine

/-! ## The registers an internal operation writes, by the operation -/

/-- Steps 4 and 5 of a tick are reached below the table length, or in `CONT` mode (R77, R151). -/
theorem State.reachesOutput_iff (s : State) :
    s.reachesOutput = true ↔ s.index.toNat < 256 ∨ s.config.wrapMode = .cont := by
  simp [State.reachesOutput]

/-- A tick that reaches step 4 writes each duty register from the one local index and the one period (R151 to R153). -/
theorem State.tickState_of_reaches {s : State} (h : s.reachesOutput = true) :
    s.tickState = s.tickOutput s.tickTimer s.tickIndex s.tickPeriod := by
  rw [tickState_eq, if_pos h]

/-- The dead tick writes no duty register (R149). -/
theorem State.tickState_of_not_reaches {s : State} (h : ¬ s.reachesOutput = true) :
    s.tickState = s.tickTimer.setIndex 0 := by
  rw [tickState_eq, if_neg h]

namespace EngineCycle

variable {s e : State} {i : Instr}

/-- The operation listed is the one the control word decodes to. -/
theorem decodeCW_eq (h : EngineCycle s i e) : decodeCW s.controlWord = i := by
  cases h with
  | hold idle zero => simp [decodeCW_controlWord, idle, zero]
  | start idle nonzero => exact decodeCW_eq_start_of_idle idle nonzero
  | pscinc running below => simp [decodeCW_controlWord, running, below]
  | cntdec running wrap counting =>
    have hcexp : s.cexp = false := (cexp_eq_false_iff s).2 counting
    simp [decodeCW_controlWord, running, wrap, hcexp]
  | tick running wrap expired => exact (decodeCW_eq_tick_iff s).2 ((tickRequest_iff s).2 ⟨running, wrap, expired⟩)

/-- Only `START` and a tick that reads a non-zero frequency write `PERIOD` (R22). -/
theorem period_eq (h : EngineCycle s i e) (hstart : i ≠ .start) (htick : i ≠ .tick ∨ s.freq = 0x0000#16) :
    e.period = s.period := by
  cases h with
  | start => exact absurd rfl hstart
  | tick => rw [s.tickState_period, s.tickPeriod_of_eq (htick.resolve_left fun h => h rfl)]
  | hold | pscinc | cntdec => rfl

/-- Only a tick that reaches step 4 writes the duty registers, all three from the local index and the new `PERIOD` (R158). -/
theorem duty_cases (h : EngineCycle s i e) :
    if i = .tick ∧ (s.index.toNat < 256 ∨ s.config.wrapMode = .cont) then
      e.duty0 = dscale s.config (s.romRead s.tickIndex) e.period ∧
      e.duty1 = dscale s.config (s.romRead (s.tickIndex + 85)) e.period ∧
      e.duty2 = dscale s.config (s.romRead (s.tickIndex + 170)) e.period
    else e.duty0 = s.duty0 ∧ e.duty1 = s.duty1 ∧ e.duty2 = s.duty2 := by
  cases h with
  | hold | start | pscinc | cntdec => exact ⟨rfl, rfl, rfl⟩
  | tick =>
    by_cases hreach : s.reachesOutput = true
    · rw [if_pos ⟨rfl, s.reachesOutput_iff.1 hreach⟩, State.tickState_of_reaches hreach]
      simp [State.dutyValue, Channel.offset]
    · rw [if_neg fun h => hreach (s.reachesOutput_iff.2 h.2), State.tickState_of_not_reaches hreach]
      simp

/-- Every internal operation keeps `PERIOD`, `CNT` and `PSC` within their widths (R20). -/
theorem inWidth (h : EngineCycle s i e) (hs : s.InWidth) : e.InWidth := by
  obtain ⟨hc, hperiod, hcnt, hpsc⟩ := hs
  have hpos := Nat.two_pow_pos s.config.pscWidth
  cases h with
  | hold => exact ⟨hc, hperiod, hcnt, hpsc⟩
  | start idle nonzero =>
    have hle := (pconv_bounds hc s.freq nonzero).2
    exact ⟨hc, hle, hle, hpos⟩
  | pscinc => exact ⟨hc, hperiod, hcnt, pscNext_lt s⟩
  | cntdec => exact ⟨hc, hperiod, Nat.le_trans (Nat.sub_le _ _) hcnt, hpos⟩
  | tick =>
    by_cases hf : s.freq = 0x0000#16
    · simp [State.InWidth, hf, s.tickPeriod_of_eq hf, hc, hperiod, hpos]
    · have hle := (pconv_bounds hc s.freq hf).2
      simp [State.InWidth, hf, s.tickPeriod_of_ne hf, hc, hle, hpos]

/-- While the timer runs, an operation other than `TICK` does not read `FREQ`: with any other frequency it is selected and
writes the same (R104, R133). -/
theorem publish (h : EngineCycle s i e) (running : s.run = true) (hi : i ≠ .tick) (f : Frequency) :
    EngineCycle (s.publish f) i (e.publish f) := by
  cases h with
  | hold idle | start idle => exact absurd (running.symm.trans idle) (by decide)
  | pscinc running below => exact .pscinc (s := s.publish f) running below
  | cntdec running wrap counting => exact .cntdec (s := s.publish f) running wrap counting
  | tick => exact absurd rfl hi

end EngineCycle

/-- A cycle without reset, as what the ENGINE does and the frequency the HOST leaves (R92). -/
theorem engineCycle_of_step_of_no_reset {s t : State} (hrst : s.currentWord.getLsbD 19 = false) (h : step s = .next t) :
    ∃ e host, EngineCycle s (decodeCW s.controlWord) e ∧ t = (e.merge host).nextCycle := by
  obtain ⟨hreset, -⟩ | ⟨-, hcycle⟩ := step_cases h
  · exact absurd (hreset.symm.trans hrst) (by decide)
  · exact hcycle

/-! ## The obligations -/

/-- Settles O40: every step is a reset, which establishes the invariants, or an ENGINE cycle, which keeps them. -/
theorem stepKeepsTheInvariants : Obligations.StepKeepsTheInvariants :=
  fun _ _ => State.Inv.step

/-- Settles O3: `RESET` answers in a cycle with `rst = 1`, and in any other the two decoded operations do. -/
theorem everyStepAnswersANextState : Obligations.EveryStepAnswersANextState := by
  intro s
  cases hrst : s.currentWord.getLsbD 19
  case true => exact ⟨_, step_of_reset hrst⟩
  case false =>
    obtain ⟨e, he⟩ := exists_exec_eq_next (decodeCW s.controlWord) s
    exact ⟨_, step_of_no_reset hrst he⟩

/-- Settles O4: the second case of what a step can do. -/
theorem stepRunsTheTwoDecodedOperations : Obligations.StepRunsTheTwoDecodedOperations :=
  fun _ e h hrst he hh => step_eq_next_iff.2 (.inr ⟨hrst, e, h, he, hh, rfl⟩)

/-- Settles O31: the index and the period of the cycle are the tick's local index and the `PERIOD` it leaves. -/
theorem dutyRegistersChangeTogether : Obligations.DutyRegistersChangeTogether := by
  intro s t hrst hstep
  obtain ⟨e, host, hcycle, rfl⟩ := engineCycle_of_step_of_no_reset hrst hstep
  have hduty := hcycle.duty_cases
  split at hduty
  case isTrue hreach =>
    rw [if_pos hreach]
    exact ⟨s.tickIndex, e.period, s.tickIndex_lt, fun h => if_neg (Nat.not_le.2 h), fun h => if_pos h, rfl, hduty⟩
  case isFalse hno =>
    rw [if_neg hno]
    exact hduty

/-- Settles O33: the host command does not reach `PERIOD`, and of the internal operations only these two write it. -/
theorem periodIsWrittenOnlyByStartAndTick : Obligations.PeriodIsWrittenOnlyByStartAndTick := by
  intro s t hrst hstep
  obtain ⟨e, host, hcycle, rfl⟩ := engineCycle_of_step_of_no_reset hrst hstep
  exact ⟨fun hf hop => (hcycle.loads hop hf).1, hcycle.period_eq⟩

/-- Settles O34: the way to `INDEX = 256`, a property of every step. -/
theorem indexReaches256OnlyAfterEntry255 : Obligations.IndexReaches256OnlyAfterEntry255 :=
  fun _ _ _ => step_index_eq_256

/-- Settles O37: the operation is `PSCINC` or `CNTDEC`, and neither reads `FREQ`. -/
theorem frequencyIsNotReadBetweenTicks : Obligations.FrequencyIsNotReadBetweenTicks := by
  intro s t f running hno he
  have hcycle := (engineCycle_of_exec he).publish running hno f
  have hselect : decodeCW (s.publish f).controlWord = decodeCW s.controlWord := hcycle.decodeCW_eq
  exact ⟨hselect, hselect ▸ hcycle.exec_eq⟩

/-- Settles O42: `RESET` loads values within the widths, and every internal operation keeps them. -/
theorem stepKeepsTheRegisterWidths : Obligations.StepKeepsTheRegisterWidths := by
  intro s t hs hstep
  obtain ⟨-, rfl⟩ | ⟨-, e, host, hcycle, rfl⟩ := step_cases hstep
  · obtain ⟨hc, -⟩ := hs
    exact ⟨hc, Nat.le_refl _, Nat.zero_le _, Nat.two_pow_pos _⟩
  · exact hcycle.inWidth hs

/-- Settles O36: the ports are the registers, and `tick_o` is the tick request where `rst = 0`. -/
theorem outputsCopyTheRegisters : Obligations.OutputsCopyTheRegisters := by
  intro s
  refine ⟨rfl, rfl, rfl, rfl, rfl, ?_⟩
  rw [decodeCW_eq_tick_iff]
  simp [State.outputs]

/-- Settles O1: the values of R34 at `PW = 8`. -/
theorem resetStateHoldsTheTableOfValues : Obligations.ResetStateHoldsTheTableOfValues :=
  ⟨rfl, rfl, rfl, rfl, rfl, rfl, rfl, rfl, rfl⟩

/-- Settles O39: an idle timer at 0, a period of `PMAX` and an index of 0, with the reference parameters. -/
theorem resetStateMeetsTheInvariants : Obligations.ResetStateMeetsTheInvariants where
  config_wellFormed := rfl
  period_pos := one_le_pmax_of_wellFormed rfl
  period_le := Nat.le_refl _
  index_le := Nat.zero_le _
  running := fun h => absurd h (by decide)
  idle := fun _ => ⟨rfl, rfl⟩
  psc_lt := prescale_pos_of_wellFormed rfl

/-- Settles O17: what `PSC` counts to is a value of its width, whatever the free value is. -/
theorem pscincBeyondTheWidthHoldsSomeValue : Obligations.PscincBeyondTheWidthHoldsSomeValue :=
  fun s running below _ => ⟨s.pscNext, pscNext_lt s, exec_pscinc running below⟩

end Sys2Proof.Machine
end

section
/-! What an operation can write (20_memory R51, 40_cycle_step R92), and what it does where it is not selected (log 5): each
internal operation is its writes under its condition, and nothing where the condition fails. -/

namespace Sys2Proof.Machine

/-! ## The frame of the internal operations -/

/-- `t` differs from `s` in ENGINE-owned registers alone (R20, R92). -/
structure EngineFrame (s t : State) : Prop where
  config : t.config = s.config
  freq : t.freq = s.freq
  stimulus : t.stimulus = s.stimulus
  freeCount : t.freeCount = s.freeCount

namespace EngineFrame

variable {s t : State}

theorem refl (s : State) : EngineFrame s s := ⟨rfl, rfl, rfl, rfl⟩

/-- A conditional write stays within the frame if the write does. -/
theorem ite {c : Prop} [Decidable c] (h : EngineFrame s t) : EngineFrame s (if c then t else s) := by
  split
  · exact h
  · exact refl s

theorem tickState (s : State) : EngineFrame s s.tickState :=
  ⟨s.tickState_config, s.tickState_freq, s.tickState_stimulus, by rw [s.tickState_eq]; split <;> simp⟩

/-- A sub-operation of a tick writes ENGINE-owned registers alone, in whatever post-edge state it adds its writes to. -/
theorem subWrites (i : Instr) (s t : State) : EngineFrame t (subWrites i s t) := by
  cases i with
  | tHalt | tOut0 | tOut1 | tOut2 | tInc => exact ite ⟨rfl, rfl, rfl, rfl⟩
  | tPload =>
    rw [Machine.subWrites, tPloadWrites_frame]
    exact ⟨rfl, rfl, rfl, rfl⟩
  | tWrap =>
    rw [Machine.subWrites, tWrapWrites_frame]
    exact ⟨rfl, rfl, rfl, rfl⟩
  | tLatch | reset | nop | wrfreq | wrsamp | wrrsv2 | wrrsv3 | hold | start | pscinc | cntdec | tick => exact refl t

end EngineFrame

/-- A sub-operation alone makes its writes where a tick is requested (log 6). -/
theorem exec_of_isSubOperation {i : Instr} (h : i.isSubOperation = true) (s : State) :
    exec i s = .next (if s.tickRequest = true then subWrites i s s else s) := by
  cases i with
  | tLatch | tPload | tHalt | tWrap | tOut0 | tOut1 | tOut2 | tInc => rfl
  | reset | nop | wrfreq | wrsamp | wrrsv2 | wrrsv3 | hold | start | pscinc | cntdec | tick => cases h

/-- An internal operation writes ENGINE-owned registers alone (R92). -/
theorem engineFrame_of_exec {i : Instr} {s t : State} (hi : (rowOf i).format = .cw) (h : exec i s = .next t) :
    EngineFrame s t := by
  cases i with
  | reset | nop | wrfreq | wrsamp | wrrsv2 | wrrsv3 => cases hi
  | hold => cases h; exact .refl s
  | start =>
    cases h
    split
    · exact ⟨rfl, rfl, rfl, rfl⟩
    · exact .refl s
  | pscinc | cntdec => cases h; exact .ite ⟨rfl, rfl, rfl, rfl⟩
  | tick => cases h; exact .ite (.tickState s)
  | tLatch | tPload | tHalt | tWrap | tOut0 | tOut1 | tOut2 | tInc =>
    rw [exec_of_isSubOperation rfl] at h
    cases h
    exact .ite (.subWrites _ s s)

/-! ## The schedule of a tick -/

/-- The sub-operations of step 2: load or halt (R147, R148). -/
def State.timerOps (s : State) : List Instr := if s.fnz = true then [.tPload] else [.tHalt]

/-- The sub-operation of step 3, where the index is at the end (R149, R150). -/
def State.wrapOps (s : State) : List Instr := if s.iend = true then [.tWrap] else []

/-- The sub-operations of steps 4 and 5, where the tick reaches them (R151 to R154). -/
def State.outputOps (s : State) : List Instr :=
  if s.reachesOutput = true then [.tOut0, .tOut1, .tOut2, .tInc] else []

/-- The schedule of a requested tick, by the conditions of its steps (R77). -/
theorem tickSchedule_of_requested {s : State} (h : s.tickRequest = true) :
    tickSchedule s.config.wrapMode s.controlWord = .tLatch :: (s.timerOps ++ s.wrapOps ++ s.outputOps) := by
  have hreach : (s.iend = false ∨ s.config.wrapMode = .cont) ↔ s.reachesOutput = true := by simp [State.reachesOutput]
  simp only [tickSchedule, if_pos ((decodeCW_eq_tick_iff s).2 h), controlWord_fnz, controlWord_iend, hreach]
  simp [State.timerOps, State.wrapOps, State.outputOps]

/-- Without a tick request nothing is scheduled (R77). -/
theorem tickSchedule_of_not_requested {s : State} (h : ¬ s.tickRequest = true) :
    tickSchedule s.config.wrapMode s.controlWord = [] :=
  if_neg fun htick => h ((decodeCW_eq_tick_iff s).1 htick)

/-- In a tick that does not schedule it a sub-operation's condition fails, and it adds no write (log 5). -/
theorem subWrites_of_not_scheduled {i : Instr} {s : State} (requested : s.tickRequest = true)
    (hno : i ∉ tickSchedule s.config.wrapMode s.controlWord) (t : State) : subWrites i s t = t := by
  rw [tickSchedule_of_requested requested] at hno
  cases i with
  | reset | nop | wrfreq | wrsamp | wrrsv2 | wrrsv3 | hold | start | pscinc | cntdec | tick | tLatch => rfl
  | tPload => exact dif_neg fun hf => hno (by simp [State.timerOps, hf])
  | tHalt => exact if_neg fun hf => hno (by simp [State.timerOps, hf])
  | tWrap => exact if_neg fun hend => hno (by simp [State.wrapOps, (iend_iff s).1 hend])
  | tOut0 | tOut1 | tOut2 | tInc => exact if_neg fun hreach => hno (by simp [State.outputOps, hreach])

/-! ## The obligations -/

/-- Settles O6: `publish` is the only write of a host command, and an internal operation writes ENGINE-owned registers. -/
theorem hostAndEngineWriteDisjointRegisters : Obligations.HostAndEngineWriteDisjointRegisters := by
  refine fun i s t h => ⟨fun hsw hreset => ?host, fun hcw => (engineFrame_of_exec hcw h).freq⟩
  cases i with
  | reset => exact absurd rfl hreset
  | nop | wrfreq | wrsamp | wrrsv2 | wrrsv3 => cases h; rfl
  | hold | start | pscinc | cntdec | tick => cases hsw
  | tLatch | tPload | tHalt | tWrap | tOut0 | tOut1 | tOut2 | tInc => cases hsw

/-- Settles O7: the parameters, and the ROM with them, are in the frame of every operation. -/
theorem operationsKeepRomAndParameters : Obligations.OperationsKeepRomAndParameters := by
  intro i s t h
  have hkeeps : t.config = s.config ∧ t.stimulus = s.stimulus ∧ t.freeCount = s.freeCount := by
    cases hfmt : (rowOf i).format with
    | cw =>
      have hframe := engineFrame_of_exec hfmt h
      exact ⟨hframe.config, hframe.stimulus, hframe.freeCount⟩
    | sw =>
      cases i with
      | reset | nop | wrfreq | wrsamp | wrrsv2 | wrrsv3 => cases h; exact ⟨rfl, rfl, rfl⟩
      | hold | start | pscinc | cntdec | tick => cases hfmt
      | tLatch | tPload | tHalt | tWrap | tOut0 | tOut1 | tOut2 | tInc => cases hfmt
  refine ⟨fun a => ?_, hkeeps⟩
  simp only [State.romRead, hkeeps.1]

/-- Settles O8: where the control word does not select an operation, its condition fails. -/
theorem unselectedOperationsAssignNothing : Obligations.UnselectedOperationsAssignNothing := by
  refine fun i s hcw => ⟨fun hmain hno => ?main, fun hsub hno => ?sub⟩
  case main =>
    cases i with
    | reset | nop | wrfreq | wrsamp | wrrsv2 | wrrsv3 => cases hcw
    | tLatch | tPload | tHalt | tWrap | tOut0 | tOut1 | tOut2 | tInc => cases hmain
    | hold => rfl
    | start => exact congrArg _ (dif_neg fun ⟨idle, nonzero⟩ => hno (EngineCycle.start idle nonzero).decodeCW_eq)
    | pscinc =>
      refine congrArg _ (if_neg fun ⟨running, hwrap⟩ => hno ?_)
      exact (EngineCycle.pscinc running ((pwrap_eq_false_iff s).1 hwrap)).decodeCW_eq
    | cntdec =>
      refine congrArg _ (if_neg fun ⟨running, hwrap, hcexp⟩ => hno ?_)
      exact (EngineCycle.cntdec running ((pwrap_iff s).1 hwrap) ((cexp_eq_false_iff s).1 hcexp)).decodeCW_eq
    | tick => exact congrArg _ (if_neg fun requested => hno ((decodeCW_eq_tick_iff s).2 requested))
  case sub =>
    rw [exec_of_isSubOperation hsub]
    by_cases requested : s.tickRequest = true
    · rw [if_pos requested, subWrites_of_not_scheduled requested hno]
    · rw [if_neg requested]

end Sys2Proof.Machine
end

section
/-! The engine tick as a whole (44_engine_tick R145 to R159): a tick is the sequence of its sub-operations, what it answers in
every case of its steps, and how the index walks the table over successive ticks. -/

namespace Sys2Proof.Machine

/-! ## The sub-operations of a schedule, in order -/

/-- Step 2 of a tick is its load or its halt (R147, R148). -/
theorem foldl_timerOps (s : State) : s.timerOps.foldl (fun t i => subWrites i s t) s = s.tickTimer := by
  by_cases hf : s.freq = 0x0000#16
  · rw [State.tickTimer_of_eq hf]
    simp [State.timerOps, subWrites, tHaltWrites, hf]
  · rw [State.tickTimer_of_ne hf]
    simp [State.timerOps, subWrites, tPloadWrites, hf]

/-- Step 3 writes `INDEX` only in the dead tick, which is the one that does not reach step 4 (R149, R150). -/
theorem foldl_wrapOps (s t : State) :
    s.wrapOps.foldl (fun t i => subWrites i s t) t = if s.reachesOutput = true then t else t.setIndex 0 := by
  by_cases hend : s.iend = true
  · cases hmode : s.config.wrapMode with
    | dead => simp [State.wrapOps, State.reachesOutput, subWrites, tWrapWrites, hend, hmode]
    | cont => simp [State.wrapOps, State.reachesOutput, subWrites, tWrapWrites, hend, hmode]
  · simp [State.wrapOps, State.reachesOutput, hend]

/-- Steps 4 and 5 are the three outputs and the increment (R151 to R154). -/
theorem foldl_outputOps (s t : State) :
    s.outputOps.foldl (fun t i => subWrites i s t) t =
      if s.reachesOutput = true then s.tickOutput t s.tickIndex s.tickPeriod else t := by
  by_cases hreach : s.reachesOutput = true
  · simp only [State.outputOps, if_pos hreach, List.foldl_cons, List.foldl_nil, subWrites, tOut0Writes, tOut1Writes,
      tOut2Writes, tIncWrites, State.tickOutput]
  · simp only [State.outputOps, if_neg hreach, List.foldl_nil]

/-! ## What a tick answers -/

theorem exec_tick_of_not_requested {s : State} (h : ¬ s.tickRequest = true) : exec .tick s = .next s :=
  congrArg _ (if_neg h)

/-- A tick that reaches step 4 with the local index `i`: step 2, then the outputs and the increment from `i`. -/
theorem exec_tick_at {s : State} {i : Nat} (running : s.run = true) (wrap : s.psc + 1 = s.config.prescale)
    (expired : s.cnt ≤ 1)
    (hindex : s.index.toNat < 256 ∧ i = s.index.toNat ∨ s.config.wrapMode = .cont ∧ 256 ≤ s.index.toNat ∧ i = 0) :
    exec .tick s = .next (s.tickOutput s.tickTimer i s.tickPeriod) := by
  obtain ⟨hreach, rfl⟩ := State.reachesOutput_at_iff.2 hindex
  rw [exec_tick ((tickRequest_iff s).2 ⟨running, wrap, expired⟩), State.tickState_of_reaches hreach]

theorem ofNat_toNat_add_one (x : TableIndex) : BitVec.ofNat 9 (x.toNat + 1) = x + 1#9 := by
  apply BitVec.eq_of_toNat_eq
  simp

/-- A tick leaves `INDEX` the same whatever frequency it reads, and without duty scaling the duty registers too (R159). -/
theorem State.tickState_publish_lookups (s : State) (f : Frequency) :
    (s.publish f).tickState.index = s.tickState.index ∧
    (s.config.dutyScale = false → (s.publish f).tickState.duty0 = s.tickState.duty0 ∧
      (s.publish f).tickState.duty1 = s.tickState.duty1 ∧ (s.publish f).tickState.duty2 = s.tickState.duty2) := by
  by_cases hreach : s.reachesOutput = true
  · have hreach' : (s.publish f).reachesOutput = true := hreach
    rw [tickState_of_reaches hreach, tickState_of_reaches hreach']
    refine ⟨rfl, fun hscale => ?_⟩
    have hduty : ∀ (p : Nat) (k : Channel), s.dutyValue s.tickIndex p k = s.romRead (s.tickIndex + Channel.offset k) :=
      fun p k => dscale_of_not_scaled hscale _ p
    have hduty' : ∀ (p : Nat) (k : Channel),
        (s.publish f).dutyValue (s.publish f).tickIndex p k = s.romRead (s.tickIndex + Channel.offset k) :=
      fun p k => dscale_of_not_scaled hscale _ p
    simp only [tickOutput_duty0, tickOutput_duty1, tickOutput_duty2, hduty, hduty', and_self]
  · have hno : ¬ (s.publish f).reachesOutput = true := hreach
    rw [tickState_of_not_reaches hreach, tickState_of_not_reaches hno]
    simp

/-! ## The index over successive ticks -/

/-- In `DEAD` mode a tick advances `INDEX` up to 256 and then returns it to 0 (R149, R154). -/
theorem State.tickState_index_of_dead {s : State} (dead : s.config.wrapMode = .dead) :
    s.tickState.index.toNat = if s.index.toNat < 256 then s.index.toNat + 1 else 0 := by
  rw [tickState_index_toNat]
  by_cases h : s.index.toNat < 256
  · rw [if_pos (s.reachesOutput_iff.2 (.inl h)), if_pos h]
    exact congrArg (· + 1) (if_neg (Nat.not_le.2 h))
  · rw [if_neg (by simp [s.reachesOutput_iff, dead, h]), if_neg h]

/-- In `CONT` mode a tick advances `INDEX` up to 256 and then leaves it at 1 (R150, R154). -/
theorem State.tickState_index_of_cont {s : State} (cont : s.config.wrapMode = .cont) :
    s.tickState.index.toNat = if s.index.toNat < 256 then s.index.toNat + 1 else 1 := by
  rw [tickState_index_toNat, if_pos (s.reachesOutput_iff.2 (.inr cont))]
  unfold tickIndex
  split <;> split <;> omega

/-- State `n + 1` of the sequence has the `INDEX` and the parameters that a requested tick leaves in state `n`; the other
registers are free. -/
def TickSequence (u : Nat → State) : Prop :=
  ∀ n, (u (n + 1)).index = (u n).tickState.index ∧ (u (n + 1)).config = (u n).config

namespace TickSequence

variable {u : Nat → State}

theorem config_eq (hu : TickSequence u) (n : Nat) : (u n).config = (u 0).config := by
  induction n with
  | zero => rfl
  | succ n ih => exact (hu n).2.trans ih

/-- 257 ticks a cycle: the residue steps with the index, and both are 0 after 256 (R159). -/
theorem index_of_dead (hu : TickSequence u) (hzero : (u 0).index = 0#9) (dead : (u 0).config.wrapMode = .dead) (n : Nat) :
    (u n).index.toNat = n % 257 := by
  induction n with
  | zero => rw [hzero]; rfl
  | succ n ih =>
    rw [(hu n).1, State.tickState_index_of_dead (by rw [hu.config_eq, dead]), ih]
    split <;> omega

/-- 256 ticks a cycle, in which the index holds 1 to 256 (R159). -/
theorem index_succ_of_cont (hu : TickSequence u) (hzero : (u 0).index = 0#9) (cont : (u 0).config.wrapMode = .cont)
    (n : Nat) : (u (n + 1)).index.toNat = n % 256 + 1 := by
  induction n with
  | zero =>
    rw [(hu 0).1, State.tickState_index_of_cont cont, hzero]
    rfl
  | succ n ih =>
    rw [(hu (n + 1)).1, State.tickState_index_of_cont (by rw [hu.config_eq, cont]), ih]
    split <;> omega

end TickSequence

/-! ## The obligations -/

/-- Settles O24: the three parts of the schedule are step 2, step 3 and steps 4 and 5 of R145. -/
theorem tickIsTheSequenceOfItsSubOperations : Obligations.TickIsTheSequenceOfItsSubOperations := by
  intro s htick
  have requested := (decodeCW_eq_tick_iff s).1 htick
  have hlatch : subWrites .tLatch s s = s := rfl
  rw [exec_tick requested, runSubOperations, tickSchedule_of_requested requested, List.foldl_cons, hlatch,
    List.foldl_append, List.foldl_append, foldl_timerOps, foldl_wrapOps, foldl_outputOps, State.tickState_eq]
  split <;> rfl

/-- Settles O23: the wrap in `CONT` mode outputs from the local index 0, with either outcome of step 2. -/
theorem continuedTickOutputsEntryZero : Obligations.ContinuedTickOutputsEntryZero := by
  intro s cont running prescaled expired wrap
  rw [exec_tick_at running prescaled expired (.inr ⟨cont, wrap, rfl⟩)]
  refine ⟨fun hf => ?loads, fun hf => ?halts⟩
  case loads => rw [State.tickTimer_of_ne hf, s.tickPeriod_of_ne hf]; rfl
  case halts => rw [State.tickTimer_of_eq hf, s.tickPeriod_of_eq hf]; rfl

/-- Settles O20: step 2 loads, and the outputs and the increment are from `INDEX` itself. -/
theorem tickLoadsAndSteps : Obligations.TickLoadsAndSteps := by
  intro s hf running prescaled expired below
  rw [exec_tick_at running prescaled expired (.inl ⟨below, rfl⟩), State.tickTimer_of_ne hf, s.tickPeriod_of_ne hf,
    ← ofNat_toNat_add_one]
  rfl

/-- Settles O21: step 2 halts and keeps the period, and the outputs and the increment are from `INDEX` itself. -/
theorem tickHaltsOnFrequencyZero : Obligations.TickHaltsOnFrequencyZero := by
  intro s hf running prescaled expired below
  rw [exec_tick_at running prescaled expired (.inl ⟨below, rfl⟩), State.tickTimer_of_eq hf, s.tickPeriod_of_eq hf,
    ← ofNat_toNat_add_one]
  rfl

/-- Settles O35: on every tick of the sequence the index steps as its wrap mode says. -/
theorem successiveTicksWalkTheTable : Obligations.SuccessiveTicksWalkTheTable := by
  intro u hzero hticks
  have hu : TickSequence u := fun n => by
    obtain ⟨requested, t, ht, hindex, hconfig⟩ := hticks n
    rw [exec_tick requested] at ht
    cases ht
    exact ⟨hindex, hconfig.trans (u n).tickState_config⟩
  exact ⟨hu.index_of_dead hzero, hu.index_succ_of_cont hzero⟩

/-- Settles O38: the tick is requested or not whatever `FREQ` holds, and its lookups do not read `FREQ`. -/
theorem frequencyNeverAltersTheLookups : Obligations.FrequencyNeverAltersTheLookups := by
  intro s t v f ht hv
  replace hv : exec .tick (s.publish f) = .next v := hv
  by_cases requested : s.tickRequest = true
  · have requested' : (s.publish f).tickRequest = true := requested
    rw [exec_tick requested] at ht
    rw [exec_tick requested'] at hv
    cases ht
    cases hv
    exact s.tickState_publish_lookups f
  · have hno : ¬ (s.publish f).tickRequest = true := requested
    rw [exec_tick_of_not_requested requested] at ht
    rw [exec_tick_of_not_requested hno] at hv
    cases ht
    cases hv
    exact ⟨rfl, fun _ => ⟨rfl, rfl, rfl⟩⟩

/-- Settles O25: `T_LATCH` has no write. -/
theorem latchWritesNoRegister : Obligations.LatchWritesNoRegister :=
  fun _ requested => congrArg _ (if_pos requested)

/-- Settles O26: the writes of `T_PLOAD` under its condition. -/
theorem ploadLoadsTheTimer : Obligations.PloadLoadsTheTimer :=
  fun _ nonzero requested => congrArg _ ((if_pos requested).trans (dif_pos nonzero))

/-- Settles O27: the writes of `T_HALT` under its condition. -/
theorem haltDisablesTheTimer : Obligations.HaltDisablesTheTimer :=
  fun _ requested zero => congrArg _ ((if_pos requested).trans (if_pos zero))

/-- Settles O28: `T_WRAP` by the wrap mode, and `T_INC` from the local index 0 that it leaves in `CONT` mode. -/
theorem wrapResetsTheIndex : Obligations.WrapResetsTheIndex := by
  intro s requested wrap
  have hend : s.iend = true := (iend_iff s).2 wrap
  have hwrap : exec .tWrap s = .next (tWrapWrites s s) := congrArg _ (if_pos requested)
  refine ⟨fun dead => ?dead, fun cont => ⟨?wrapWritesNothing, ?inc⟩⟩
  case dead =>
    rw [hwrap, tWrapWrites, if_pos hend, dead]
    rfl
  case wrapWritesNothing => rw [hwrap, tWrapWrites, if_pos hend, cont]
  case inc =>
    obtain ⟨reaches, hzero⟩ := State.reachesOutput_at_iff.2 (.inr ⟨cont, wrap, rfl⟩)
    rw [exec_tInc requested reaches, hzero]
    rfl

end Sys2Proof.Machine
end

section
/-! Encodings (30_encoding R72, R76, R77, R82): decode reads back what encode writes, the control word's rows, a control word
placed for the next cycle, and the disassembly of a stimulus word. -/

namespace Sys2Proof

/-! ## The words of the host commands -/

theorem decodeSW_wrfreq_word (d : Frequency) : decodeSW (0b0100#4 ++ d) = .wrfreq d := by
  rw [decodeSW_append]
  rfl

/-- The operand of `WRSAMP` is read back from below its six unexamined bits (R74). -/
theorem decodeSW_wrsamp_word (v : Sample) : decodeSW (0b0101#4 ++ 0#6 ++ v) = .wrsamp v := by
  have hdata : (0#6 ++ v).extractLsb' 0 10 = v := BitVec.extractLsb'_append_eq_right
  have hword : 0b0101#4 ++ 0#6 ++ v = 0b0101#4 ++ (0#6 ++ v) := BitVec.append_assoc
  rw [hword, decodeSW_append, hdata]
  rfl

/-! ## Decode and encode -/

/-- An operation that is no sub-operation is read back from its word with its operand. -/
theorem decodeEncoded_encode {i : Instr} (h : i.isSubOperation = false) : decodeEncoded (encode i) = i := by
  cases i with
  | reset | nop | hold | start | pscinc | cntdec | tick => rfl
  | wrfreq d => exact decodeSW_wrfreq_word d
  | wrsamp v => exact decodeSW_wrsamp_word v
  | wrrsv2 x => exact Machine.decodeSW_reserved2 x
  | wrrsv3 x => exact Machine.decodeSW_reserved3 x
  | tLatch | tPload | tHalt | tWrap | tOut0 | tOut1 | tOut2 | tInc => cases h

/-- A sub-operation's word is a word of `TICK` that selects it in the reference wrap mode (log 6). -/
theorem encode_of_isSubOperation {i : Instr} (h : i.isSubOperation = true) :
    ∃ cw, encode i = .cw cw ∧ decodeCW cw = .tick ∧ i ∈ tickSchedule .dead cw := by
  cases i with
  | tLatch | tPload | tHalt | tWrap | tOut0 | tOut1 | tOut2 | tInc => exact ⟨_, rfl, rfl, by decide⟩
  | reset | nop | wrfreq | wrsamp | wrrsv2 | wrrsv3 | hold | start | pscinc | cntdec | tick => cases h

/-- Settles O55: the two halves, by the operation. -/
theorem decodeReadsBackWhatEncodeWrites : Obligations.DecodeReadsBackWhatEncodeWrites :=
  fun _ => ⟨decodeEncoded_encode, encode_of_isSubOperation⟩

/-! ## The rows of the control word -/

/-- Settles O53: R76 examines five bits, so its rows are checked word by word. -/
theorem controlDecodeFollowsTheTable : Obligations.ControlDecodeFollowsTheTable := by
  unfold Obligations.ControlDecodeFollowsTheTable
  decide

/-- Settles O54: for each wrap mode the schedules of the 32 words are checked against the patterns of R77. -/
theorem tickScheduleFollowsTheTable : Obligations.TickScheduleFollowsTheTable := by
  intro m
  cases m with
  | dead => decide
  | cont => decide

/-- Settles O56: each word decodes by computation. -/
theorem wordsWrittenOutDecode : Obligations.WordsWrittenOutDecode :=
  ⟨rfl, rfl, rfl, rfl, rfl, rfl, rfl, rfl, rfl, rfl, rfl⟩

end Sys2Proof

namespace Sys2Proof.Machine

/-! ## A control word placed for the next cycle -/

namespace State

variable (s : State) (cw : ControlWord)

/-- A byte of a table word is placed as its control word (log 10). -/
theorem withFetchWord_controlWord : s.withFetchWord 8 cw.toNat = s.withControlWord cw := by
  show s.withControlWord (BitVec.ofNat 5 cw.toNat) = _
  rw [BitVec.ofNat_toNat, BitVec.setWidth_eq]

theorem withControlWord_fnz : (s.withControlWord cw).fnz = cw.getLsbD 3 := by
  cases hbit : cw[3]
  case false => simp [withControlWord, fnz, hbit]
  case true => by_cases hf : s.freq = 0x0000#16 <;> simp [withControlWord, fnz, hbit, hf]

/-- A placed `pwrap = 0` needs a `PSC` other than `PRESCALE - 1`, which a prescaler of 1 does not leave (log 10). -/
theorem withControlWord_pwrap (hpos : 1 ≤ s.config.prescale) (hplaced : s.config.prescale ≠ 1 ∨ cw.getLsbD 2 = true) :
    (s.withControlWord cw).pwrap = cw.getLsbD 2 := by
  cases hbit : cw[2]
  case true => simp [withControlWord, pwrap, hbit, Nat.sub_add_cancel hpos]
  case false =>
    have hne : 1 ≠ s.config.prescale := (hplaced.resolve_right (by simp [hbit])).symm
    by_cases hp : s.psc + 1 = s.config.prescale <;> simp [withControlWord, pwrap, hbit, hp, hne]

theorem withControlWord_cexp : (s.withControlWord cw).cexp = cw.getLsbD 1 := by
  cases hbit : cw.getLsbD 1
  case false =>
    have hcnt : (s.withControlWord cw).cnt = max s.cnt 2 := if_neg (by rw [hbit]; decide)
    exact (cexp_eq_false_iff _).2 (hcnt ▸ Nat.le_max_right s.cnt 2)
  case true =>
    have hcnt : (s.withControlWord cw).cnt = 1 := if_pos hbit
    exact (cexp_iff _).2 (Nat.le_of_eq hcnt)

theorem withControlWord_iend : (s.withControlWord cw).iend = cw.getLsbD 0 := by
  cases hbit : cw[0]
  case true => simp [withControlWord, iend, hbit]
  case false => by_cases hi : 256 ≤ s.index.toNat <;> simp [withControlWord, iend, hbit, hi]

theorem ofBool_bits (cw : ControlWord) :
    BitVec.ofBool (cw.getLsbD 4) ++ BitVec.ofBool (cw.getLsbD 3) ++ BitVec.ofBool (cw.getLsbD 2) ++
      BitVec.ofBool (cw.getLsbD 1) ++ BitVec.ofBool (cw.getLsbD 0) = cw := by
  revert cw
  decide

theorem withControlWord_controlWord (hpos : 1 ≤ s.config.prescale)
    (hplaced : s.config.prescale ≠ 1 ∨ cw.getLsbD 2 = true) : (s.withControlWord cw).controlWord = cw := by
  have hrun : (s.withControlWord cw).run = cw.getLsbD 4 := rfl
  rw [controlWord, hrun, withControlWord_fnz, withControlWord_pwrap s cw hpos hplaced, withControlWord_cexp,
    withControlWord_iend, ofBool_bits]

end State

/-- Settles O57: the placed registers have the word's five conditions, and the placed stimulus word is a `NOP`. -/
theorem placedControlWordIsExecuted : Obligations.PlacedControlWordIsExecuted := by
  intro s e cw hpos hplaced
  rw [State.withFetchWord_controlWord]
  have hcw := s.withControlWord_controlWord cw hpos hplaced
  have hnop : (s.withControlWord cw).currentWord = 0x00000#20 := currentWord_cons _ _ _ rfl
  refine ⟨hcw, fun he => nopLeavesTheCycleToTheEngine.2 _ e (by rw [hnop]; rfl) ?_⟩
  rw [hcw]
  exact he

/-! ## Disassembly -/

/-- A word of four selecting bits and an operand, as the assembler computes it (R82). -/
theorem ofNat_selecting_add_operand {h : BitVec 4} {n : Nat} (hn : n = h.toNat * 65536) (x : BitVec 16) :
    BitVec.ofNat 20 (n + x.toNat) = h ++ x := by
  subst hn
  apply BitVec.eq_of_toNat_eq
  have hh := h.isLt
  have hx := x.isLt
  rw [BitVec.toNat_append, Nat.shiftLeft_eq, BitVec.toNat_ofNat, Nat.mod_eq_of_lt (by omega), Nat.mul_comm,
    Nat.two_pow_add_eq_or_of_lt hx, Nat.mul_comm]

/-- Two words have the same effect if both reset or neither does and they publish the same (R91, R92). -/
theorem step_withStimulusWord_of_decode {w w' : StimulusWord} (hreset : decodeSW w = .reset ↔ decodeSW w' = .reset)
    (hpub : published (decodeSW w) = published (decodeSW w')) (s : State) :
    step (s.withStimulusWord w) = step (s.withStimulusWord w') := by
  rw [decodeSW_eq_reset_iff, decodeSW_eq_reset_iff] at hreset
  exact step_withStimulusWord_congr s (Bool.eq_iff_iff.2 hreset) hpub

/-- The word the assembler computes for `WRSAMP` is the encoder's (R82). -/
theorem ofNat_wrsamp_word (v : Sample) : BitVec.ofNat 20 (0x50000 + v.toNat) = 0b0101#4 ++ 0#6 ++ v := by
  have hoperand : (0#6 ++ v).toNat = v.toNat := by
    rw [BitVec.toNat_append]
    simp
  calc BitVec.ofNat 20 (0x50000 + v.toNat) = 0b0101#4 ++ (0#6 ++ v) := by
        rw [← hoperand, ofNat_selecting_add_operand (h := 0b0101#4) (by decide)]
    _ = 0b0101#4 ++ 0#6 ++ v := BitVec.append_assoc.symm

/-- The disassembly of a word assembles to a word that decodes to the same operation, but for the operand of a reserved
write, which publishes nothing (R82, log 12). -/
theorem assemble_disassemble (w : StimulusWord) : ∃ w', Script.assemble (Script.disassemble w) = some [w'] ∧
    (decodeSW w' = .reset ↔ decodeSW w = .reset) ∧ published (decodeSW w') = published (decodeSW w) := by
  have hrow := stimulusRow_decodeSW w
  unfold Script.disassemble
  cases hw : decodeSW w with
  | reset => exact ⟨_, Script.assemble_rst, .rfl, rfl⟩
  | nop => exact ⟨_, Script.assemble_nop, .rfl, rfl⟩
  | wrfreq d =>
    have hword : BitVec.ofNat 20 (0x40000 + d.toNat) = 0b0100#4 ++ d :=
      ofNat_selecting_add_operand (by decide) d
    refine ⟨_, (Script.assemble_wrfreq _).trans (if_pos (Nat.le_of_lt_succ d.isLt)), ?_⟩
    rw [hword, decodeSW_wrfreq_word]
    exact ⟨.rfl, rfl⟩
  | wrsamp v =>
    refine ⟨_, (Script.assemble_wrsamp _).trans (if_pos (Nat.le_of_lt_succ v.isLt)), ?_⟩
    rw [ofNat_wrsamp_word, decodeSW_wrsamp_word]
    exact ⟨.rfl, rfl⟩
  | wrrsv2 x =>
    have hword : BitVec.ofNat 20 (0x60000 + 0) = 0b0110#4 ++ 0#16 := rfl
    refine ⟨_, Script.assemble_wrrsv2 0, ?_⟩
    rw [hword, decodeSW_reserved2]
    exact ⟨by simp, rfl⟩
  | wrrsv3 x =>
    have hword : BitVec.ofNat 20 (0x70000 + 0) = 0b0111#4 ++ 0#16 := rfl
    refine ⟨_, Script.assemble_wrrsv3 0, ?_⟩
    rw [hword, decodeSW_reserved3]
    exact ⟨by simp, rfl⟩
  | hold | start | pscinc | cntdec | tick => rw [hw] at hrow; exact hrow.elim
  | tLatch | tPload | tHalt | tWrap | tOut0 | tOut1 | tOut2 | tInc => rw [hw] at hrow; exact hrow.elim

/-- Settles O59: the assembled word resets and publishes as the original does, which is all of a word that a step sees. -/
theorem disassemblyKeepsTheEffectOfAWord : Obligations.DisassemblyKeepsTheEffectOfAWord := by
  intro w
  obtain ⟨w', hassemble, hreset, hpub⟩ := assemble_disassemble w
  exact ⟨w', hassemble, step_withStimulusWord_of_decode hreset hpub⟩

end Sys2Proof.Machine
end

section
/-! The range and the order of `PCONV` (42_converters R118) and the sine ROM (20_memory R51, R52; 44_engine_tick R160): its
period, its default contents, and that it holds any table. -/

namespace Sys2Proof.Rom

/-- A read reduces its address to the eight bits of a ROM address (R51). -/
theorem read_mod (m : Memory) (a : Nat) : read m (a % 256) = read m a := by
  unfold read
  rw [Nat.mod_mod]

/-- Laying the first `n` entries of a table over the default keeps the canonical form (log 9). -/
theorem wf_ofTableUpTo (f : Nat → Byte) (n : Nat) : Memory.wf (ofTableUpTo f n) = true := by
  induction n with
  | zero => exact wf_nil
  | succ n ih => exact wf_write ih n (f n)

/-- The entries laid over the default read as the table. -/
theorem read_ofTableUpTo (f : Nat → Byte) {n a : Nat} (hn : n ≤ 256) (ha : a < n) : read (ofTableUpTo f n) a = f a := by
  induction n with
  | zero => exact absurd ha (Nat.not_lt_zero a)
  | succ n ih =>
    by_cases hlast : a = n
    · rw [hlast]
      exact read_write_same (wf_ofTableUpTo f n) n (f n)
    · have hother : a % 256 ≠ n % 256 := by omega
      exact (read_write_other (wf_ofTableUpTo f n) (f n) hother).trans (ih (by omega) (by omega))

/-- Settles O49: the 256 writes keep the canonical form, and each is read back. -/
theorem romHoldsAnyTable : Obligations.RomHoldsAnyTable := by
  refine fun f => ⟨wf_ofTableUpTo f 256, fun a => ?_⟩
  rw [← read_mod]
  exact read_ofTableUpTo f (Nat.le_refl 256) (Nat.mod_lt a (by decide))

/-- Settles O48: an address is reduced modulo 256 before it is looked up. -/
theorem romReadIsPeriodic : Obligations.RomReadIsPeriodic := by
  refine fun s a => ⟨(read_mod _ a).symm, ?_⟩
  have hperiod : (a + 256) % 256 = a % 256 := Nat.add_mod_right a 256
  exact (read_mod _ _).symm.trans (hperiod ▸ read_mod _ a)

/-! ## The default table, entry by entry -/

theorem defaultTable_length : defaultTable.length = 256 := by
  decide +kernel

theorem defaultByte_eq_getElem {a : Nat} (h : a % 256 < defaultTable.length) :
    defaultByte a = BitVec.ofNat 8 defaultTable[a % 256] := by
  rw [defaultByte, List.getD_eq_getElem?_getD, List.getElem?_eq_getElem h, Option.getD_some]

/-- The default table once round from address `k` on, as the channel with the offset `k` reads it (R29). -/
def defaultFrom (k : Nat) : List Byte := (defaultTable.drop k ++ defaultTable.take k).map (BitVec.ofNat 8)

theorem defaultFrom_length {k : Nat} (hk : k < 256) : (defaultFrom k).length = 256 := by
  rw [defaultFrom, List.length_map, List.length_append, List.length_drop, List.length_take, defaultTable_length]
  omega

/-- Entry `i` from `k` on is before the end of the table or, once round, `256` below `i + k`. -/
theorem defaultFrom_getElem {k i : Nat} (hk : k < 256) (hi : i < (defaultFrom k).length) :
    (defaultFrom k)[i] = defaultByte (i + k) := by
  have hlen := defaultTable_length
  have hdrop : (defaultTable.drop k).length = 256 - k := by rw [List.length_drop, hlen]
  have hi256 : i < 256 := defaultFrom_length hk ▸ hi
  have haddr : (i + k) % 256 < defaultTable.length := by omega
  simp only [defaultByte_eq_getElem haddr, defaultFrom, List.getElem_map]
  congr 1
  by_cases hbefore : i < 256 - k
  · have hmod : (i + k) % 256 = k + i := by omega
    rw [List.getElem_append_left (by omega), List.getElem_drop]
    simp only [hmod]
  · have hmod : (i + k) % 256 = i - (256 - k) := by omega
    rw [List.getElem_append_right (by omega), List.getElem_take]
    simp only [hmod, hdrop]

/-- What a walk along the table finds at every index holds at every index: the entries `i`, `i + k` and `i + l` are read in
step, so that a finite check passes over the table once. -/
theorem forall_lt_256_of_walk {P : Nat → Byte → Byte → Byte → Prop} {k l : Nat} (hk : k < 256) (hl : l < 256)
    (h : ∀ x ∈ ((defaultFrom 0).zip ((defaultFrom k).zip (defaultFrom l))).zipIdx, P x.2 x.1.1 x.1.2.1 x.1.2.2) :
    ∀ i < 256, P i (defaultByte i) (defaultByte (i + k)) (defaultByte (i + l)) := by
  intro i hi
  have hzero : 0 < 256 := by decide
  have hlen : i < (((defaultFrom 0).zip ((defaultFrom k).zip (defaultFrom l))).zipIdx).length := by
    simp only [List.length_zipIdx, List.length_zip, defaultFrom_length hzero, defaultFrom_length hk,
      defaultFrom_length hl]
    omega
  have hwalk := h _ (List.getElem_mem hlen)
  simp only [List.getElem_zipIdx, List.getElem_zip, defaultFrom_getElem hzero, defaultFrom_getElem hk,
    defaultFrom_getElem hl, Nat.zero_add, Nat.add_zero] at hwalk
  exact hwalk

/-- Entries half a wave apart add to 256, no entry is 0, and the minimum and the maximum are seven entries each (R52). -/
theorem defaultByte_wave : ∀ i < 256,
    (defaultByte i).toNat + (defaultByte (i + 128)).toNat = 256 ∧ 1 ≤ (defaultByte i).toNat ∧
      (defaultByte i = 1#8 ↔ 189 ≤ i ∧ i ≤ 195) ∧ (defaultByte i = 255#8 ↔ 61 ≤ i ∧ i ≤ 67) :=
  forall_lt_256_of_walk (P := fun i x y _ => x.toNat + y.toNat = 256 ∧ 1 ≤ x.toNat ∧
    (x = 1#8 ↔ 189 ≤ i ∧ i ≤ 195) ∧ (x = 255#8 ↔ 61 ≤ i ∧ i ≤ 67))
    (k := 128) (l := 0) (by decide) (by decide) (by decide +kernel)

theorem defaultTable_sum : defaultTable.sum = 32768 := by
  decide +kernel

/-- Settles O50: the listed properties of the table's 256 entries. -/
theorem defaultRomHasTheListedProperties : Obligations.DefaultRomHasTheListedProperties := by
  refine ⟨defaultTable_length, rfl, rfl, rfl, rfl, fun i hi => ?half, defaultTable_sum, fun i hi => ?pos, fun i hi => ?ext⟩
  all_goals obtain ⟨hhalf, hpos, hextrema⟩ := defaultByte_wave i hi
  case half => exact hhalf
  case pos => exact hpos
  case ext => exact hextrema

/-- Settles O51: the three samples of a tick are compared at each of the 256 indices. -/
theorem defaultRomChannelsCoincideTwice : Obligations.DefaultRomChannelsCoincideTwice :=
  forall_lt_256_of_walk (P := fun i x y z => x ≠ y ∧ y ≠ z ∧ (x = z ↔ i = 107 ∨ i = 235))
    (k := 85) (l := 170) (by decide) (by decide) (by decide +kernel)

end Sys2Proof.Rom

namespace Sys2Proof.Machine

/-- Rounding half up is halving the doubled quotient up. -/
theorem roundHalfUp_eq_half (a : Nat) {b : Nat} (hb : 0 < b) : roundHalfUp a b = (2 * a / b + 1) / 2 := by
  unfold roundHalfUp
  rw [Nat.mul_comm 2 b, ← Nat.div_div_eq_div_mul, Nat.add_div_right _ hb]

/-- A larger divisor gives no larger rounded quotient. -/
theorem roundHalfUp_anti (a : Nat) {b c : Nat} (hb : 0 < b) (h : b ≤ c) : roundHalfUp a c ≤ roundHalfUp a b := by
  rw [roundHalfUp_eq_half a hb, roundHalfUp_eq_half a (Nat.lt_of_lt_of_le hb h)]
  exact Nat.div_le_div_right (Nat.add_le_add_right (Nat.div_le_div_left h hb) 1)

theorem toNat_pos_of_ne_zero {f : Frequency} (h : f ≠ 0x0000#16) : 0 < f.toNat :=
  Nat.pos_of_ne_zero fun hf => h (BitVec.eq_of_toNat_eq hf)

/-- A higher frequency has no longer period: it divides by more, and the clamp is monotone (R118 (b)). -/
theorem pconv_anti {c : Config} (hc : c.wellFormed = true) {f g : Frequency} (hf : f ≠ 0x0000#16) (hg : g ≠ 0x0000#16)
    (h : f.toNat ≤ g.toNat) : pconv c g hg ≤ pconv c f hf := by
  rw [pconv_eq_narrow, pconv_eq_narrow]
  have hdivisor : 0 < c.prescale * f.toNat := Nat.mul_pos (prescale_pos_of_wellFormed hc) (toNat_pos_of_ne_zero hf)
  exact clamp_mono (roundHalfUp_anti c.fClk hdivisor (Nat.mul_le_mul_left _ h))

/-- Settles O45: the clamp's bounds, and the order of the divisors. -/
theorem pconvIsInRangeAndNonIncreasing : Obligations.PconvIsInRangeAndNonIncreasing :=
  fun _ hc => ⟨pconv_bounds hc, fun _ _ => pconv_anti hc⟩

/-- Settles O46: each value is computed from the definition in the reference configuration. -/
theorem pconvReferenceValues : Obligations.PconvReferenceValues :=
  ⟨rfl, rfl, rfl, rfl, rfl, rfl, rfl, rfl, rfl, rfl, rfl, rfl, rfl⟩

end Sys2Proof.Machine
end
